-- ==== Sys2Proof/Word.lean ====
section
/-! DEFINITION. The two data widths of the spec: a byte is 8 bits, a word is 16 bits (R11). -/

namespace Sys2Proof

/-- A byte (R11). -/
abbrev Byte := BitVec 8

/-- A word of this spec: 16 bits (R11). -/
abbrev Word := BitVec 16

/-- The host request word `REQ[55:0]` (R68). -/
abbrev Req := BitVec 56

end Sys2Proof
end

