-- ==== Sys2Proof/Syntax.lean ====
section
/-! DEFINITION. The instructions: one constructor for each of the 14 rows of `spec/opcode_table.json` (nine requests, R70;
five wire commands, R63), the two forms in which an instruction is presented, and the six session operations. -/

namespace Sys2Proof

/-- The sensor variant; `VAR` 0 is `Variant0`, 1 is `Variant1` (R78). -/
inductive Variant where
  | variant0
  | variant1
  deriving DecidableEq, Repr, Inhabited

/-- The five wire commands (R15 "Command Code", R63). -/
inductive WireCommand where
  | getSerialNumber
  | executeSelfTest
  | executeConditioning
  | measureRawSignal
  | turnHeaterOff
  deriving DecidableEq, Repr

/-- The two byte spaces (R40). -/
inductive Space where
  | tx
  | rx
  deriving DecidableEq, Repr

/-- The instructions. The operands are those of the formats R71 to R77 and of the frames R61, R62. -/
inductive Instr where
  /-- `CRCINIT`, format Z (R71, R93). -/
  | crcinit
  /-- `CRCUPD b`, format B (R72, R94). -/
  | crcupd (byte : Byte)
  /-- `RESOLVE code, v`, format R (R73, R102). -/
  | resolve (code : Word) (var : Variant)
  /-- `BUILD code [, rh, t]`, format F (R74, R111): the presence bits are apart from the values. -/
  | build (code : Word) (rhp tp : Bool) (rhraw traw : Word)
  /-- `PARSE n, ver`, format P (R75, R113). -/
  | parse (elen : BitVec 4) (ver : Bool)
  /-- `RAWRH x`, format V (R77, R132). -/
  | rawrh (val : Word)
  /-- `RAWT x`, format V (R77, R134). -/
  | rawt (val : Word)
  /-- `RXWR i, b`, format X (R76, R116). -/
  | rxwr (idx : BitVec 4) (byte : Byte)
  /-- `TXRD i`, format X (R76, R117). -/
  | txrd (idx : BitVec 4)
  /-- Wire command get-serial-number, frame W2 (R63, R144). -/
  | getSerialNumber
  /-- Wire command execute-self-test, frame W2 (R63, R145). -/
  | executeSelfTest
  /-- Wire command execute-conditioning, frame W8 (R63, R146). -/
  | executeConditioning (rhraw traw : Word)
  /-- Wire command measure-raw-signal, frame W8 (R63, R147). -/
  | measureRawSignal (rhraw traw : Word)
  /-- Wire command turn-heater-off, frame W2 (R63, R148). -/
  | turnHeaterOff
  deriving DecidableEq, Repr

/-- How an instruction is presented: a host request word (R68), or the bytes of a command frame in wire order (R60). -/
inductive Presented where
  | request (req : Req)
  | frame (bytes : List Byte)
  deriving DecidableEq, Repr

/-- Why the decoder rejects what was presented. -/
inductive DecodeError where
  /-- `OP` is 9 to 15 (R79). -/
  | reservedOp (op : BitVec 4)
  /-- A frame that has neither 2 nor 8 bytes (R60). -/
  | badLength (bytes : List Byte)
  /-- The code of the frame is none of the five command codes (R63, R80 b). -/
  | unknownCode (code : Word)
  /-- A known command in the frame format the session does not use for it (R63), with the values of that frame. -/
  | wrongShape (cmd : WireCommand) (params : Option (Word × Word))
  /-- A `W8` frame with a known code in which a checksum byte is not `crc8` of its pair (R62). -/
  | badChecksum (bytes : List Byte)
  deriving DecidableEq, Repr

/-- The six session operations with their operands in whole units (R144 to R149); `VAL` of R77 fixes the width. -/
inductive SessionOp where
  | getId
  | selfTest
  | condition (rh t : Word)
  | measure (rh t : Word)
  | heaterOff
  | getSensorId
  deriving DecidableEq, Repr

end Sys2Proof
end

