-- ==== Sys2Proof/Config.lean ====
section
/-! DEFINITION. What one implementation fixes: the OPEN parameters of R9 as opaque constants (nothing in Lean can evaluate
them, so a claim holds for every value), the host constants of R9, and the free values of the model. -/

namespace Sys2Proof

/-- What the transport answers to the write and the read of one command, or to one transport call of its own (log 7):
whether each call succeeds (R150), and the bytes a successful `read_exact` fills in. The nine bytes are under no law (R34,
R154, R155); a shorter response uses the first. -/
structure Exchange where
  writeOk : Bool
  readOk : Bool
  bytes : Vector Byte 9
  deriving DecidableEq, Repr, Inhabited

namespace Config

/-- OPEN (R9, D6), log 1: the five command codes, given as five values of an arbitrary permutation of the 16-bit values.
Every assignment of five pairwise distinct codes extends to a permutation, so nothing is assumed but that they differ. -/
opaque codeOf : Equiv.Perm Word

/-- `CMD_GET_SERIAL` (R9, OPEN). -/
def cmdGetSerial : Word := codeOf 0
/-- `CMD_SELF_TEST` (R9, OPEN). -/
def cmdSelfTest : Word := codeOf 1
/-- `CMD_CONDITIONING` (R9, OPEN). -/
def cmdConditioning : Word := codeOf 2
/-- `CMD_MEASURE_RAW` (R9, OPEN). -/
def cmdMeasureRaw : Word := codeOf 3
/-- `CMD_HEATER_OFF` (R9, OPEN). -/
def cmdHeaterOff : Word := codeOf 4

/-- `VERIFY_DEFAULT` (R9, R141, D27): OPEN, log 2. -/
opaque verifyDefault : Bool

/-- `MAX_HEAT_MS` (R9, R153, D29): OPEN, log 2. -/
opaque maxHeatMs : Nat

/-- `BUS_ADDR` (R9, R47): the one valid 7-bit bus address. -/
def busAddr : BitVec 7 := 0x59

/-- `SELF_TEST_OK` (R9, R123). -/
def selfTestOk : Word := 0xD400

/-- `RH_DEFAULT` (R9): percent. -/
def rhDefault : Word := 50

/-- `T_DEFAULT` (R9): degrees Celsius. -/
def tDefault : Word := 25

/-- Free value, log 4: the byte a cell of a frame buffer holds that nothing has written since reset number `epoch` (R190,
R192, U2: "any value"). -/
opaque unwritten (epoch : Nat) (space : Space) (index : Nat) : Byte

/-- Free value, log 7: what the transport and the sensor answer to the `n`-th command or transport call for which the state
lists no answer
(R34, R155: bytes under no law; R150: either call may fail). -/
opaque freeExchange (n : Nat) : Exchange

end Config
end Sys2Proof
end

