-- ==== Sys2Proof/Machine/Checksum.lean ====
section
/-! DEFINITION. The function of the Checksum Unit (R90, R91). -/

namespace Sys2Proof.Machine

/-- `CRC_POLY` (R9, R90): x^8 + x^5 + x^4 + 1 without its leading term. -/
def crcPoly : Byte := 0x31

/-- `CRC_INIT` (R9, R90). -/
def crcInitial : Byte := 0xFF

/-- One of the eight rounds of `crc_step` (R91): shift left, and `xor` the polynomial when bit 7 was set. -/
def crcBit (c : Byte) : Byte :=
  if c.msb then (c <<< 1) ^^^ crcPoly else c <<< 1

/-- `crcBit` repeated `n` times. -/
def crcBits : Nat → Byte → Byte
  | 0, c => c
  | n + 1, c => crcBits n (crcBit c)

/-- `crc_step(c, b)` (R91). -/
def crcStep (c b : Byte) : Byte :=
  crcBits 8 (c ^^^ b)

/-- The checksum register after a byte sequence, from the value `c`. -/
def crcFrom (c : Byte) (bytes : List Byte) : Byte :=
  bytes.foldl crcStep c

/-- `crc8(s)` (R91). -/
def crc8 (bytes : List Byte) : Byte :=
  crcFrom crcInitial bytes

end Sys2Proof.Machine
end

