-- ==== Sys2Proof/Machine/Operands.lean ====
section
/-! DEFINITION. Operand forms: byte order (R42, R66), signed operands (R12), the presence bits of `BUILD` (R74, R81), the
bytes of a command frame (R61, R62), the fixed-point arithmetic of the Value Transforms (R130, R138), and the parameters
those need. -/

namespace Sys2Proof.Machine

/-- `v[15:8]` (R66). -/
def hiByte (v : Word) : Byte := v.extractLsb' 8 8

/-- `v[7:0]` (R66). -/
def loByte (v : Word) : Byte := v.extractLsb' 0 8

/-- `hi : lo` (R11, R66). -/
def joinBytes (hi lo : Byte) : Word := hi ++ lo

/-- `sint16(v)` (R12). -/
def sint16 (v : Word) : Int := v.toInt

/-- The variant a `VAR` bit names (R78). -/
def variantOfBit (b : Bool) : Variant := if b then .variant1 else .variant0

/-- The `VAR` bit of a variant (R78). -/
def bitOfVariant : Variant → Bool
  | .variant0 => false
  | .variant1 => true

/-- The code of a wire command (R9, R63). -/
def codeOfCommand : WireCommand → Word
  | .getSerialNumber => Config.cmdGetSerial
  | .executeSelfTest => Config.cmdSelfTest
  | .executeConditioning => Config.cmdConditioning
  | .measureRawSignal => Config.cmdMeasureRaw
  | .turnHeaterOff => Config.cmdHeaterOff

/-- The wire command a code names, none for an unknown code (R63, R80 b). -/
def commandOfCode (code : Word) : Option WireCommand :=
  if code = Config.cmdHeaterOff then some .turnHeaterOff
  else if code = Config.cmdSelfTest then some .executeSelfTest
  else if code = Config.cmdConditioning then some .executeConditioning
  else if code = Config.cmdMeasureRaw then some .measureRawSignal
  else if code = Config.cmdGetSerial then some .getSerialNumber
  else none

/-- The compensation values `BUILD` uses: both presence bits or nothing (R74, R81, R110). -/
def suppliedParams (rhp tp : Bool) (rhraw traw : Word) : Option (Word × Word) :=
  if rhp && tp then some (rhraw, traw) else none

/-- A word and its checksum, as they stand in a `W8` frame (R62, R95). -/
def guardedWord (v : Word) : List Byte :=
  [hiByte v, loByte v, crc8 [hiByte v, loByte v]]

/-- The bytes of a command frame in wire order: `W2` without and `W8` with compensation values (R61, R62). -/
def frameBytes (code : Word) : Option (Word × Word) → List Byte
  | none => [hiByte code, loByte code]
  | some (rh, t) => [hiByte code, loByte code] ++ guardedWord rh ++ guardedWord t

/-- The command code a frame begins with, none where it is too short to carry one (R61, R62). -/
def frameCode : List Byte → Option Word
  | hi :: lo :: _ => some (joinBytes hi lo)
  | [_] => none
  | [] => none

/-- `RH_NUM` (R9, R133), log 13. -/
def rhNum : Nat := 65535
/-- `RH_DEN` (R9, R133), log 13. -/
def rhDen : Nat := 1000
/-- `T_NUM` (R9, R135). -/
def tNum : Nat := 3744857142857
/-- `T_DEN` (R9, R135). -/
def tDen : Nat := 10000000000
/-- `RH_MIN` (R9). -/
def rhMin : Int := 0
/-- `RH_MAX` (R9). -/
def rhMax : Int := 100
/-- `T_MIN` (R9). -/
def tMin : Int := -45
/-- `T_MAX` (R9). -/
def tMax : Int := 130
/-- `T_OFFSET` (R9). -/
def tOffset : Int := 45

/-- `round_haz(k * num / den)` of a natural number `k` (R130). -/
def roundScaled (k num den : Nat) : Nat :=
  (2 * k * num + den) / (2 * den)

/-- Raw humidity of a whole percentage, none outside the range (R132). -/
def rawHumidity (rh : Int) : Option Word :=
  if rh < rhMin ∨ rh > rhMax then none
  else some (BitVec.ofNat 16 (roundScaled rh.toNat rhNum rhDen))

/-- Raw temperature of whole degrees, none outside the range (R134). -/
def rawTemperature (t : Int) : Option Word :=
  if t < tMin ∨ t > tMax then none
  else some (BitVec.ofNat 16 (roundScaled (t + tOffset).toNat tNum tDen))

/-- `expected_length` is one of 0, 3, 6, 9 (R9 `LEGAL_LENGTHS`, R80 a). -/
def legalLength (elen : BitVec 4) : Bool :=
  elen == 0 || elen == 3 || elen == 6 || elen == 9

/-- `RX_CAP` (R9): the size of space `RX`. -/
def rxCap : Nat := 9

/-- `TX_CAP` (R9): the size of space `TX`. -/
def txCap : Nat := 8

end Sys2Proof.Machine
end

