-- ==== Sys2Proof/Decode.lean ====
section
/-! DEFINITION. The decoder of request words (R68 to R79) and of command frames (R60 to R63), total, rejecting by name; after
it the encoder, from the same tables. -/

namespace Sys2Proof

open Machine

/-- The field of `n` bits whose lowest bit is `lo` (R11). -/
def reqField (w : Req) (lo n : Nat) : BitVec n := w.extractLsb' lo n

/-- The single-bit field at `i` (R11). -/
def reqBit (w : Req) (i : Nat) : Bool := w.getLsbD i

/-- The instruction of a request word (R70 to R78); `OP` 9 to 15 is reserved (R79), bits a format does not name are ignored
(R68). -/
def decodeRequest (w : Req) : Except DecodeError Instr :=
  match (reqField w 52 4).toNat with
  | 0 => .ok .crcinit
  | 1 => .ok (.crcupd (reqField w 0 8))
  | 2 => .ok (.resolve (reqField w 0 16) (variantOfBit (reqBit w 16)))
  | 3 => .ok (.build (reqField w 0 16) (reqBit w 48) (reqBit w 49) (reqField w 16 16) (reqField w 32 16))
  | 4 => .ok (.parse (reqField w 0 4) (reqBit w 4))
  | 5 => .ok (.rawrh (reqField w 0 16))
  | 6 => .ok (.rawt (reqField w 0 16))
  | 7 => .ok (.rxwr (reqField w 8 4) (reqField w 0 8))
  | 8 => .ok (.txrd (reqField w 8 4))
  | _ => .error (.reservedOp (reqField w 52 4))

/-- The instruction of a bare frame with the command `cmd` (R61, R63). -/
def decodeBare : WireCommand → Except DecodeError Instr
  | .getSerialNumber => .ok .getSerialNumber
  | .executeSelfTest => .ok .executeSelfTest
  | .turnHeaterOff => .ok .turnHeaterOff
  | .executeConditioning => .error (.wrongShape .executeConditioning none)
  | .measureRawSignal => .error (.wrongShape .measureRawSignal none)

/-- The instruction of a parameter frame with the command `cmd` (R62, R63). -/
def decodeParam (cmd : WireCommand) (rh t : Word) : Except DecodeError Instr :=
  match cmd with
  | .executeConditioning => .ok (.executeConditioning rh t)
  | .measureRawSignal => .ok (.measureRawSignal rh t)
  | .getSerialNumber => .error (.wrongShape .getSerialNumber (some (rh, t)))
  | .executeSelfTest => .error (.wrongShape .executeSelfTest (some (rh, t)))
  | .turnHeaterOff => .error (.wrongShape .turnHeaterOff (some (rh, t)))

/-- The instruction of a command frame, its bytes in wire order (R60 to R63). -/
def decodeFrame (bytes : List Byte) : Except DecodeError Instr :=
  match bytes with
  | [ch, cl] =>
    match commandOfCode (joinBytes ch cl) with
    | none => .error (.unknownCode (joinBytes ch cl))
    | some cmd => decodeBare cmd
  | [ch, cl, rh, rl, rc, th, tl, tc] =>
    match commandOfCode (joinBytes ch cl) with
    | none => .error (.unknownCode (joinBytes ch cl))
    | some cmd =>
      if rc = crc8 [rh, rl] ∧ tc = crc8 [th, tl] then decodeParam cmd (joinBytes rh rl) (joinBytes th tl)
      else .error (.badChecksum bytes)
  | _ => .error (.badLength bytes)

/-- The decoder, total on everything that can be presented (R79). -/
def decode : Presented → Except DecodeError Instr
  | .request w => decodeRequest w
  | .frame bytes => decodeFrame bytes

/-- The bytes of a frame whose bits are the number `w`, byte 0 in the highest bits (R61, R62: "byte 0 on the left"; log 15). -/
def bytesOfFrame (n w : Nat) : List Byte :=
  (List.range n).map fun i => BitVec.ofNat 8 (w >>> (8 * (n - 1 - i)))

/-- What is presented by `nbits` bits `w`: 56 bits are a request word (R68), other widths a frame (R61, R62; log 15). -/
def presentedOfBits (nbits w : Nat) : Presented :=
  if nbits = 56 then .request (BitVec.ofNat 56 w) else .frame (bytesOfFrame (nbits / 8) w)

/-- The instruction the decoder reads from the bits `w` of a row of the opcode table. -/
def decodeTableWord (nbits w : Nat) : Option Instr :=
  (decode (presentedOfBits nbits w)).toOption

/-! ### The encoder -/

/-- A request word from `OP` and the number its low 52 bits spell (R68). -/
def reqWord (op operands : Nat) : Req := BitVec.ofNat 56 (op * 2 ^ 52 + operands)

/-- What presents an instruction: each field at the place its format gives it (R71 to R77); bits a format does not name are
written zero (R68). -/
def encode : Instr → Presented
  | .crcinit => .request (reqWord 0 0)
  | .crcupd byte => .request (reqWord 1 byte.toNat)
  | .resolve code var => .request (reqWord 2 ((bitOfVariant var).toNat * 2 ^ 16 + code.toNat))
  | .build code rhp tp rhraw traw =>
    .request (reqWord 3 (tp.toNat * 2 ^ 49 + rhp.toNat * 2 ^ 48 + traw.toNat * 2 ^ 32 + rhraw.toNat * 2 ^ 16 + code.toNat))
  | .parse elen ver => .request (reqWord 4 (ver.toNat * 2 ^ 4 + elen.toNat))
  | .rawrh val => .request (reqWord 5 val.toNat)
  | .rawt val => .request (reqWord 6 val.toNat)
  | .rxwr idx byte => .request (reqWord 7 (idx.toNat * 2 ^ 8 + byte.toNat))
  | .txrd idx => .request (reqWord 8 (idx.toNat * 2 ^ 8))
  | .getSerialNumber => .frame (frameBytes Config.cmdGetSerial none)
  | .executeSelfTest => .frame (frameBytes Config.cmdSelfTest none)
  | .executeConditioning rhraw traw => .frame (frameBytes Config.cmdConditioning (some (rhraw, traw)))
  | .measureRawSignal rhraw traw => .frame (frameBytes Config.cmdMeasureRaw (some (rhraw, traw)))
  | .turnHeaterOff => .frame (frameBytes Config.cmdHeaterOff none)

end Sys2Proof
end

