-- ==== Sys2Proof/Machine/State.lean ====
section
/-! DEFINITION. The state as plain data: the block's registers and buffers (R20), the host's session (R141), the model's own
fields, the reasons a step can stop, and the state after reset (R190, R35). -/

namespace Sys2Proof.Machine

/-- A byte space (R40): the cells written since the last reset, indices strictly rising. An unlisted index holds a byte the
spec does not give (R190, R192; log 4). -/
abbrev Memory := List Host.Cell

/-- The canonical form of a memory of `size` bytes: indices strictly rising and inside the space (R40). -/
def Memory.wf (size : Nat) (m : Memory) : Bool :=
  decide (m.Pairwise fun a b => a.1 < b.1) && m.all fun c => decide (c.1 < size)

/-- A fault the block raises, with what it records (R160). `IllegalRequest` is the last. -/
inductive BlockFault where
  | outOfRange
  | invalidCommand
  | unsupportedOnVariant
  | invalidLength
  | checksumMismatch (gidx : BitVec 2) (expected computed : Byte)
  | illegalRequest
  deriving DecidableEq, Repr

/-- The register `ERR` (R20, R31): `CAUSE`, `GIDX`, `EXP`, `CMP`. -/
structure Err where
  cause : BitVec 3
  gidx : BitVec 2
  exp : Byte
  cmp : Byte
  deriving DecidableEq, Repr

/-- The session states (R142). -/
inductive SessionState where
  | idle
  | awaitingResponse
  | measuring
  deriving DecidableEq, Repr

/-- The host state of a Sensor Session (R141). `lastCmd` is none before the first send. -/
structure Session where
  addr : BitVec 7
  variant : Variant
  verify : Bool
  lastCmd : Option Word
  sstate : SessionState
  deriving DecidableEq, Repr

/-- What an operation of the host ends with when it fails: the host's own causes (R168) or a fault of the block. -/
inductive HostError where
  | invalidArgument
  | busError
  | block (f : BlockFault)
  deriving DecidableEq, Repr

/-- What one operation of the host returned to its caller (R121 to R124, R143, R149, R151, R152). -/
inductive HostResult where
  /-- A session was constructed (R143). -/
  | constructed
  /-- `SerialNumber` (R121). -/
  | serialNumber (w0 w1 w2 : Word)
  /-- `result_code` (R123). -/
  | selfTest (code : Word)
  /-- `MeasuredValues` (R122). -/
  | measured (voc : Word) (nox : Option Word)
  /-- The empty result (R124). -/
  | empty
  /-- `get_sensor_id` (R149). -/
  | sensorId (v : Variant)
  /-- The words `D[0..NGRP-1]` as they are, where the spec gives no typed view of them (R120, R210: the host gets `NGRP` and
  `D`). DESIGN CHOICE (log 26). -/
  | untyped (words : List Word)
  | failed (e : HostError)
  deriving DecidableEq, Repr

/-- One move of the host (R210). -/
inductive Move where
  /-- A request word or a command frame (R68, R60). -/
  | present (p : Presented)
  /-- A session operation in whole units (R144 to R149). -/
  | operate (op : SessionOp)
  /-- The construction of a session from an address, a variant identifier and the verification flag (R143). -/
  | construct (addr variant : Int) (verify : Bool)
  /-- The reset event (R190). -/
  | reset
  /-- The interaction "send" of R210: `TXRD`s, then `transport.write` of the frame in `TX` (log 24). -/
  | send
  /-- The interaction "wait" of R210, of so many milliseconds; a longer wait is several (R202, log 21). -/
  | wait (ms : Word)
  /-- The interaction "receive" of R210: `transport.read_exact` of `LEN` bytes, then `RXWR`s (log 24). -/
  | receive
  /-- The interaction "decode" of R210: `PARSE LEN, VERIFY` and the typed view; with `skip` the host skips the `PARSE` of a
  response of length 0 (R124, R210). -/
  | decode (skip : Bool)
  deriving DecidableEq, Repr

/-- One event on the transport, as the host performs it (R150, R151). -/
inductive BusEvent where
  /-- `transport.write(bytes)` to an address, and whether it succeeded. -/
  | write (addr : BitVec 7) (bytes : List Byte) (ok : Bool)
  /-- The wait between write and read, at least so many milliseconds (R202). -/
  | wait (ms : Word)
  /-- `transport.read_exact` of so many bytes from an address, and the bytes it filled in, none where it failed. -/
  | read (addr : BitVec 7) (len : BitVec 4) (bytes : Option (List Byte))
  deriving DecidableEq, Repr

/-- The state: the block's (R20), the host's (R141), and the model's own fields from `inbox` on. -/
structure State where
  /-- `CRC` (R23). -/
  crc : Byte
  /-- `TX[0..7]` (R24). -/
  tx : Memory
  /-- `TXLEN` (R24). -/
  txlen : BitVec 4
  /-- `RX[0..8]` (R25). -/
  rx : Memory
  /-- `LEN` (R26). -/
  len : BitVec 4
  /-- `WAIT`, milliseconds (R26). -/
  wait : Word
  /-- `NGRP` (R27). -/
  ngrp : BitVec 2
  /-- `D[0..2]` (R27). -/
  d : Vector Word 3
  /-- `OK[0..2]` (R27). -/
  ok : Vector Bool 3
  /-- `RAW` (R28). -/
  raw : Word
  /-- `RDATA` (R29). -/
  rdata : Byte
  /-- `ERR` (R31). -/
  err : Err
  /-- The Sensor Session, none where none exists (R140, R141, R143). -/
  session : Option Session
  /-- The host's results: what its operations returned, oldest first (R151, R152, R212). -/
  results : List HostResult
  /-- The MODEL's: the host moves still to be performed, oldest first (log 6). -/
  inbox : List Move
  /-- The MODEL's: what the transport answers to the next commands (log 7). -/
  exchanges : List Exchange
  /-- The MODEL's: how many answers were taken from the free value so far (log 7). -/
  draws : Nat
  /-- The MODEL's: how many resets there were, which selects the free bytes of the buffers (log 4). -/
  epoch : Nat
  /-- The MODEL's: the `epoch` of the latest successful send, which tells a command restarted after a reset in its middle
  from an interleaved one (R193, R203; log 25). -/
  sentEpoch : Nat
  /-- The MODEL's: the transport events so far, oldest first (log 20). -/
  trace : List BusEvent
  deriving DecidableEq, Repr

/-- Why the machine stops with a fault. -/
inductive Fault where
  /-- Raised by a wire command or a session operation where no session exists (R143: "no session exists afterwards"; R194).
  Safe: the machine stops and nothing is claimed to happen (log 18). -/
  | noSession
  deriving DecidableEq, Repr

/-- Why the machine refuses. -/
inductive Refusal where
  /-- Raised by no arm of this model: every instruction has its meaning. Safe. -/
  | notModelled (mnemonic : String)
  /-- Raised by every command or send but that of turn-heater-off which starts in `AwaitingResponse` with no reset since the
  send (R142, R203, U3: "refuse"). Safe: the machine stops (log 17). -/
  | interleavedSequences
  deriving DecidableEq, Repr

/-- `ERR` with all four fields zero (R31, R35). -/
def Err.clear : Err := { cause := 0, gidx := 0, exp := 0, cmp := 0 }

/-- A session right after its construction (R143): address `0x59` (R141), nothing sent yet, `Idle`. -/
def Session.fresh (variant : Variant) (verify : Bool) : Session :=
  { addr := Config.busAddr, variant := variant, verify := verify, lastCmd := none, sstate := .idle }

/-- The state after reset (R190, R35). `LEN`, `WAIT`, `D`, `OK`, `RAW` and `RDATA` are zero by log 3, the bytes of the buffers
are free by log 4, the session was constructed before the reset (R195) by log 5. -/
def State.reset : State :=
  { crc := 0xFF
    tx := []
    txlen := 0
    rx := []
    len := 0
    wait := 0
    ngrp := 0
    d := #v[0, 0, 0]
    ok := #v[false, false, false]
    raw := 0
    rdata := 0
    err := Err.clear
    session := some (Session.fresh .variant0 Config.verifyDefault)
    results := []
    inbox := []
    exchanges := []
    draws := 0
    epoch := 0
    sentEpoch := 0
    trace := [] }

end Sys2Proof.Machine
end

