-- ==== Sys2Proof/Machine/Flags.lean ====
section
/-! DEFINITION. Status values. The block has no condition codes (R30); its status bits are `OK` (R27) and `ERR` (R31). -/

namespace Sys2Proof.Machine

/-- `code(cause)` (R160). -/
def causeCode : BlockFault → BitVec 3
  | .outOfRange => 1
  | .invalidCommand => 2
  | .unsupportedOnVariant => 3
  | .invalidLength => 4
  | .checksumMismatch _ _ _ => 5
  | .illegalRequest => 6

/-- What a fault writes into `ERR` (R31): the code, and for a checksum mismatch its three fields (R114). -/
def errOfFault (f : BlockFault) : Err :=
  match f with
  | .checksumMismatch gidx expected computed =>
    { cause := causeCode f, gidx := gidx, exp := expected, cmp := computed }
  | _ => { cause := causeCode f, gidx := 0, exp := 0, cmp := 0 }

/-- `OK[i]` of a group (R27, R115): whether the stored checksum byte is that of the data pair. -/
def groupIntact (hi lo stored : Byte) : Bool :=
  crc8 [hi, lo] == stored

/-- The caller's reading of a self-test result (R123): only `0xD400` is success. -/
def selfTestPassed (code : Word) : Bool :=
  code == Config.selfTestOk

end Sys2Proof.Machine
end

