-- ==== Sys2Proof/Machine/Ops.lean ====
section
/-! DEFINITION. The named operations over the buffers, the registers, the session and the transport, and the one operation by
which a fault is taken (R171). There is no return from a fault and nothing to restore (R173), so none stands beside it. -/

namespace Sys2Proof.Machine

/-! ### The byte spaces (R40, R41) -/

/-- The byte written at an index, none where nothing has been written. -/
def Memory.find? : Memory → Nat → Option Byte
  | [], _ => none
  | (i, b) :: m, j => if i = j then some b else Memory.find? m j

/-- `MemWrite(space, i, 1, b)` (R41), keeping the indices in rising order. -/
def Memory.write : Memory → Nat → Byte → Memory
  | [], j, b => [(j, b)]
  | (i, c) :: m, j, b =>
    if j < i then (j, b) :: (i, c) :: m
    else if j = i then (j, b) :: m
    else (i, c) :: Memory.write m j b

/-- Consecutive bytes from an index on. -/
def Memory.store (m : Memory) (base : Nat) : List Byte → Memory
  | [] => m
  | b :: bs => Memory.store (m.write base b) (base + 1) bs

/-- `MemRead(TX, i, 1)` (R41). -/
def State.txByte (s : State) (i : Nat) : Byte :=
  (s.tx.find? i).getD (Config.unwritten s.epoch .tx i)

/-- `MemRead(RX, i, 1)` (R41). -/
def State.rxByte (s : State) (i : Nat) : Byte :=
  (s.rx.find? i).getD (Config.unwritten s.epoch .rx i)

/-! ### Outcomes of a request (R14, R31, R171) -/

/-- FAULT ENTRY (R171): the request writes `ERR` and nothing else; no mode, no handler, nothing is saved. -/
def State.takeFault (s : State) (f : BlockFault) : State :=
  { s with err := errOfFault f }

/-- Outcome `OK`: `ERR` is cleared (R31). -/
def State.complete (s : State) : State :=
  { s with err := Err.clear }

/-- The state after a request that starts in `s`: the new registers with `ERR` cleared, or the fault taken in `s` itself
(R13: a fault drops what the request had assigned before it). -/
def State.answer (s : State) : Except BlockFault State → State
  | .ok t => t.complete
  | .error f => s.takeFault f

/-! ### The host's side -/

/-- An operation returns to its caller: the host has one result more (R212). -/
def State.returns (s : State) (r : HostResult) : State :=
  { s with results := s.results ++ [r] }

/-- Records a transport event. -/
def State.record (s : State) (e : BusEvent) : State :=
  { s with trace := s.trace ++ [e] }

/-- The session after a change of the host's. -/
def State.setSession (s : State) (sess : Session) : State :=
  { s with session := some sess }

/-- What the transport answers to the next command or transport call (log 7). -/
def State.nextExchange (s : State) : Exchange :=
  match s.exchanges with
  | [] => Config.freeExchange s.draws
  | x :: _ => x

/-- What `read_exact` of `len` bytes answers: it fills the buffer completely or fails (R150). -/
def readAnswer (x : Exchange) (len : BitVec 4) : Option (List Byte) :=
  if x.readOk then some (x.bytes.toList.take len.toNat) else none

/-- The answer is used up (log 7). -/
def State.popExchange (s : State) : State :=
  match s.exchanges with
  | [] => { s with draws := s.draws + 1 }
  | _ :: xs => { s with exchanges := xs }

/-- The session after its command `code` was sent: `LASTCMD`, `SSTATE` (R151 steps 4 and 8), and the epoch of that send
(log 25). -/
def State.issue (s : State) (sess : Session) (code : Word) (sstate : SessionState) : State :=
  { s with session := some { sess with lastCmd := some code, sstate := sstate }, sentEpoch := s.epoch }

/-- Whether a session is in the middle of a command (R142). A reset since the send has ended that command, and the host "must
start the command again" (R193, log 25). -/
def State.midCommand (s : State) (sess : Session) : Bool :=
  sess.sstate == .awaitingResponse && s.sentEpoch == s.epoch

/-- A session operation runs in an existing session (R143) that is not in the middle of a command (R142); turn-heater-off is
"valid from any state" (R148). -/
def State.withSession (s : State) (fromAnyState : Bool) (f : Session → State) : Host.Outcome State Fault Refusal :=
  match s.session with
  | none => .fault .noSession
  | some sess => if !fromAnyState && s.midCommand sess then .refused .interleavedSequences else .next (f sess)

/-- RESET of the block (R190) in a running system: the block's registers take their reset values, the buffers hold free
bytes of a new epoch, and the host's side is untouched (R193). -/
def State.resetBlock (s : State) : State :=
  { State.reset with
    session := s.session
    results := s.results
    inbox := s.inbox
    exchanges := s.exchanges
    draws := s.draws
    epoch := s.epoch + 1
    sentEpoch := s.sentEpoch
    trace := s.trace }

end Sys2Proof.Machine
end

