-- ==== Sys2Proof/Machine/ChecksumUnit.lean ====
section
/-! DEFINITION. The requests of the Checksum Unit: `CRCINIT` (R93), `CRCUPD` (R94). -/

namespace Sys2Proof.Machine

/-- `CRCINIT` (R93). -/
def execCrcinit (s : State) : Host.Outcome State Fault Refusal :=
  .next (s.answer (.ok { s with crc := crcInitial }))

/-- `CRCUPD b` (R94). -/
def execCrcupd (byte : Byte) (s : State) : Host.Outcome State Fault Refusal :=
  .next (s.answer (.ok { s with crc := crcStep s.crc byte }))

end Sys2Proof.Machine
end

