-- ==== Sys2Proof/Machine/FrameCodec.lean ====
section
/-! DEFINITION. The Frame Codec: `BUILD` (R111), `PARSE` (R113), `RXWR` (R116), `TXRD` (R117). -/

namespace Sys2Proof.Machine

/-- The state after a frame has been serialised into `TX` (R111): bytes past the frame keep their old contents. -/
def State.buildFrame (s : State) (code : Word) (params : Option (Word × Word)) : State :=
  { s with
    tx := s.tx.store 0 (frameBytes code params)
    txlen := BitVec.ofNat 4 (frameBytes code params).length }

/-- `BUILD` (R111). -/
def execBuild (code : Word) (rhp tp : Bool) (rhraw traw : Word) (s : State) : Host.Outcome State Fault Refusal :=
  .next (s.answer (.ok (s.buildFrame code (suppliedParams rhp tp rhraw traw))))

/-- The loop of `PARSE` over `n` groups from group `i` on (R113, R118): data word and match bit of each, or the first
mismatch where `verify` is on. -/
def decodeGroups (rx : Nat → Byte) (verify : Bool) (i : Nat) : Nat → Except BlockFault (List (Word × Bool))
  | 0 => .ok []
  | n + 1 =>
    if verify && !groupIntact (rx (3 * i)) (rx (3 * i + 1)) (rx (3 * i + 2)) then
      .error (.checksumMismatch (BitVec.ofNat 2 i) (rx (3 * i + 2)) (crc8 [rx (3 * i), rx (3 * i + 1)]))
    else
      (decodeGroups rx verify (i + 1) n).map fun gs =>
        (joinBytes (rx (3 * i)) (rx (3 * i + 1)), groupIntact (rx (3 * i)) (rx (3 * i + 1)) (rx (3 * i + 2))) :: gs

/-- The groups `PARSE` decodes: `InvalidLength` comes before any byte is read (R113, R170). -/
def parseResponse (rx : Nat → Byte) (elen : BitVec 4) (verify : Bool) : Except BlockFault (List (Word × Bool)) :=
  if legalLength elen then decodeGroups rx verify 0 (elen.toNat / 3)
  else .error .invalidLength

/-- The state with `NGRP`, `D`, `OK` written (R113): entries past the last group keep their old contents. -/
def State.setGroups (s : State) (gs : List (Word × Bool)) : State :=
  { s with
    ngrp := BitVec.ofNat 2 gs.length
    d := Vector.ofFn fun i => (gs[i.val]?.map Prod.fst).getD s.d[i]
    ok := Vector.ofFn fun i => (gs[i.val]?.map Prod.snd).getD s.ok[i] }

/-- What `PARSE` makes of a state: its groups stored, or its fault. -/
def State.parseFrame (s : State) (elen : BitVec 4) (verify : Bool) : Except BlockFault State :=
  (parseResponse s.rxByte elen verify).map s.setGroups

/-- `PARSE n, ver` (R113). -/
def execParse (elen : BitVec 4) (ver : Bool) (s : State) : Host.Outcome State Fault Refusal :=
  .next (s.answer (s.parseFrame elen ver))

/-- `RXWR i, b` (R116). -/
def execRxwr (idx : BitVec 4) (byte : Byte) (s : State) : Host.Outcome State Fault Refusal :=
  .next (s.answer (if rxCap ≤ idx.toNat then .error .illegalRequest else .ok { s with rx := s.rx.write idx.toNat byte }))

/-- `RDATA` takes the byte `TX[i]` (R117). -/
def State.fetchTx (s : State) (i : Nat) : State :=
  { s with rdata := s.txByte i }

/-- `TXRD i` (R117). -/
def execTxrd (idx : BitVec 4) (s : State) : Host.Outcome State Fault Refusal :=
  .next (s.answer (if txCap ≤ idx.toNat then .error .illegalRequest else .ok (s.fetchTx idx.toNat)))

end Sys2Proof.Machine
end

