-- ==== Sys2Proof/Machine/Resolver.lean ====
section
/-! DEFINITION. The Response Metadata Resolver: the table (R101) and `RESOLVE` (R102). -/

namespace Sys2Proof.Machine

/-- The response metadata (R15): byte length and wait in milliseconds. -/
structure Metadata where
  len : BitVec 4
  wait : Word
  deriving DecidableEq, Repr

/-- The table of R101, one entry for each pair; the one pair without an entry is R103's. -/
def metadataTable : WireCommand → Variant → Except BlockFault Metadata
  | .turnHeaterOff, _ => .ok ⟨0, 1⟩
  | .executeSelfTest, _ => .ok ⟨3, 320⟩
  | .executeConditioning, .variant1 => .ok ⟨3, 50⟩
  | .executeConditioning, .variant0 => .error .unsupportedOnVariant
  | .measureRawSignal, .variant0 => .ok ⟨3, 30⟩
  | .measureRawSignal, .variant1 => .ok ⟨6, 50⟩
  | .getSerialNumber, _ => .ok ⟨9, 1⟩

/-- `resolve(command, variant)` (R100, R102). -/
def metadata (code : Word) (var : Variant) : Except BlockFault Metadata :=
  match commandOfCode code with
  | none => .error .invalidCommand
  | some cmd => metadataTable cmd var

/-- The state with `LEN` and `WAIT` written (R102). -/
def State.setMetadata (s : State) (m : Metadata) : State :=
  { s with len := m.len, wait := m.wait }

/-- `RESOLVE code, v` (R102). -/
def execResolve (code : Word) (var : Variant) (s : State) : Host.Outcome State Fault Refusal :=
  .next (s.answer ((metadata code var).map s.setMetadata))

end Sys2Proof.Machine
end

