-- ==== Sys2Proof/Machine/ValueTransforms.lean ====
section
/-! DEFINITION. The Value Transforms: `RAWRH` (R132), `RAWT` (R134). -/

namespace Sys2Proof.Machine

/-- The state with `RAW` written, or `OutOfRange` where the transform gives no value (R132, R134, R136). -/
def State.setRaw (s : State) : Option Word → Except BlockFault State
  | none => .error .outOfRange
  | some v => .ok { s with raw := v }

/-- `RAWRH x` (R132). -/
def execRawrh (val : Word) (s : State) : Host.Outcome State Fault Refusal :=
  .next (s.answer (s.setRaw (rawHumidity (sint16 val))))

/-- `RAWT x` (R134). -/
def execRawt (val : Word) (s : State) : Host.Outcome State Fault Refusal :=
  .next (s.answer (s.setRaw (rawTemperature (sint16 val))))

end Sys2Proof.Machine
end

