-- ==== Sys2Proof/Machine/WireCommands.lean ====
section
/-! DEFINITION. The five wire commands (R63, R144 to R148): steps 2 to 8 of the common sequence (R151) with its errors (R152),
run as the one atomic step the spec calls it (R45, R142; log 8). -/

namespace Sys2Proof.Machine

/-- The state a command leaves the session in (R151 step 8, R152): `Measuring` for the two heating commands. -/
def endState (code : Word) : SessionState :=
  if code = Config.cmdMeasureRaw ∨ code = Config.cmdConditioning then .measuring else .idle

/-- The words the latest successful `PARSE` delivered: `D[0..NGRP-1]` (R27, R120). -/
def State.words (s : State) : List Word :=
  s.d.toList.take s.ngrp.toNat

/-- The typed view of a command's response (R121 to R124), given for as many words as the response has on that variant. DESIGN
CHOICE (log 26): with any other number of words the host has them as they are. -/
def typedView (cmd : WireCommand) (variant : Variant) (words : List Word) : HostResult :=
  match cmd with
  | .getSerialNumber =>
    match words with
    | [w0, w1, w2] => .serialNumber w0 w1 w2
    | _ => .untyped words
  | .executeSelfTest =>
    match words with
    | [code] => .selfTest code
    | _ => .untyped words
  | .executeConditioning =>
    match variant with
    | .variant0 => .untyped words
    | .variant1 =>
      match words with
      | [voc] => .measured voc none
      | _ => .untyped words
  | .measureRawSignal =>
    match variant with
    | .variant0 =>
      match words with
      | [voc] => .measured voc none
      | _ => .untyped words
    | .variant1 =>
      match words with
      | [voc, nox] => .measured voc (some nox)
      | _ => .untyped words
  | .turnHeaterOff =>
    match words with
    | [] => .empty
    | _ => .untyped words

/-- The view of a response "according to the command it last sent" (R120). DESIGN CHOICE (log 26): for a code that is none of
the five, and before the first send, the host has the words as they are. -/
def viewOf (last : Option Word) (variant : Variant) (words : List Word) : HostResult :=
  match last.bind commandOfCode with
  | some cmd => typedView cmd variant words
  | none => .untyped words

/-- The bytes `TX[0..TXLEN-1]` (R24): the frame to send, in wire order. -/
def State.txFrame (s : State) : List Byte :=
  (List.range s.txlen.toNat).map s.txByte

/-- `TXRD 0` to `TXRD n-1` (R83 `TXDUMP`), each of which succeeds. -/
def State.dumpTx (s : State) (n : Nat) : State :=
  (List.range n).foldl (fun t i => (t.fetchTx i).complete) s

/-- `RXWR 0, b0` to `RXWR k-1, b(k-1)` (R83 `RXLOAD`), each of which succeeds. -/
def State.loadRx (s : State) (bytes : List Byte) : State :=
  { s with rx := s.rx.store 0 bytes }.complete

/-- Steps 2 to 4 of R151 up to the write: metadata, frame, and the frame read out byte by byte. -/
def State.prepare (s : State) (code : Word) (params : Option (Word × Word)) (m : Metadata) : State :=
  let built := ((s.setMetadata m).complete.buildFrame code params).complete
  built.dumpTx built.txlen.toNat

/-- Steps 7 and 8 of R151: `PARSE`, then the typed view or the fault (R152); `last` is the code last sent. -/
def State.parseAndReturn (s : State) (last : Option Word) (sess : Session) (len : BitVec 4) : State :=
  let parsed := s.parseFrame len sess.verify
  let t := s.answer parsed
  match parsed with
  | .ok _ => t.returns (viewOf last sess.variant t.words)
  | .error f => t.returns (.failed (.block f))

/-- Steps 6 to 8 of R151, the session already in its end state: the read (none for a response of length 0, R124), the
`RXWR`s, the `PARSE`. `read_exact` reads from the session's address (R150). A failing read leaves `RX` as it was (R151 step 6,
R152). -/
def State.receive (s : State) (code : Word) (sess : Session) (len : BitVec 4) (x : Exchange) : State :=
  if len = 0 then s.parseAndReturn (some code) sess len
  else
    let r := s.record (.read sess.addr len (readAnswer x len))
    match readAnswer x len with
    | some bytes => (r.loadRx bytes).parseAndReturn (some code) sess len
    | none => r.returns (.failed .busError)

/-- Steps 4 to 8 of R151 from the write on. A failing write leaves `SSTATE` and `LASTCMD` unchanged (R152); after a write the
sensor has acted, so `SSTATE` is set as by a success whatever follows (R152). -/
def State.transmit (s : State) (code : Word) (m : Metadata) (sess : Session) : State :=
  let x := s.nextExchange
  let t := s.popExchange.record (.write sess.addr s.txFrame x.writeOk)
  if x.writeOk then
    ((t.issue sess code (endState code)).record (.wait m.wait)).receive code sess m.len x
  else t.returns (.failed .busError)

/-- `command(code, params)` from step 2 of R151 on: a lookup fault ends it before anything is sent (R152). -/
def State.command (s : State) (code : Word) (params : Option (Word × Word)) (sess : Session) : State :=
  match metadata code sess.variant with
  | .error f => (s.takeFault f).returns (.failed (.block f))
  | .ok m => (s.prepare code params m).transmit code m sess

/-! ### The interactions of a command one by one (R210, log 24) -/

/-- The session once the response to its pending command is read and validated, or that has failed (R142, R151 step 8, R152). -/
def Session.settled (sess : Session) : Session :=
  match sess.sstate, sess.lastCmd with
  | .awaitingResponse, some code => { sess with sstate := endState code }
  | .awaitingResponse, none => { sess with sstate := .idle }
  | .idle, _ => sess
  | .measuring, _ => sess

/-- `transport.write` of the given bytes to the session's address (R150, R151 step 4): a success records the code the bytes
begin with and leaves the session `AwaitingResponse`; a failure returns `BusError` and leaves it as it was (R152). Bytes too
few to carry a code issue no command (log 16). -/
def State.writeBytes (s : State) (bytes : List Byte) (sess : Session) : State :=
  let x := s.nextExchange
  let t := s.popExchange.record (.write sess.addr bytes x.writeOk)
  if x.writeOk then
    match frameCode bytes with
    | some code => t.issue sess code .awaitingResponse
    | none => t
  else t.returns (.failed .busError)

/-- A write to the bus can start where its command can (R142, R148). -/
def State.sendBytes (s : State) (bytes : List Byte) : Host.Outcome State Fault Refusal :=
  s.withSession (frameCode bytes == some Config.cmdHeaterOff) (s.writeBytes bytes)

/-- "Send" (R210): `TXRD 0` to `TXRD TXLEN-1`, then `transport.write` of exactly `TX[0..TXLEN-1]`. -/
def State.sendFrame (s : State) : Host.Outcome State Fault Refusal :=
  (s.dumpTx s.txlen.toNat).sendBytes s.txFrame

/-- "Receive" (R210): `transport.read_exact` of `LEN` bytes from the session's address, none for length 0 (R124), then the
`RXWR`s. A failure returns `BusError`, leaves `RX` as it was and ends the pending command (R152). -/
def State.readResponse (s : State) (sess : Session) : State :=
  if s.len = 0 then s
  else
    let x := s.nextExchange
    let r := s.popExchange.record (.read sess.addr s.len (readAnswer x s.len))
    match readAnswer x s.len with
    | some bytes => r.loadRx bytes
    | none => (r.setSession sess.settled).returns (.failed .busError)

/-- "Decode" (R210): `PARSE LEN, VERIFY`, then the view or the fault is returned, which ends the pending command. The host may
skip the `PARSE` of a response of length 0, and of no other (R124). The two courses "differ only in `NGRP` and `ERR`" (R124), so
a skipped one returns the view of no words. -/
def State.decodeResponse (s : State) (skip : Bool) (sess : Session) : State :=
  let t := s.setSession sess.settled
  if skip && s.len == 0 then t.returns (viewOf sess.lastCmd sess.variant [])
  else t.parseAndReturn sess.lastCmd sess s.len

/-! ### The instructions -/

/-- get-serial-number (R144). -/
def execGetSerialNumber (s : State) : Host.Outcome State Fault Refusal :=
  s.withSession false (s.command Config.cmdGetSerial none)

/-- execute-self-test (R145). -/
def execExecuteSelfTest (s : State) : Host.Outcome State Fault Refusal :=
  s.withSession false (s.command Config.cmdSelfTest none)

/-- execute-conditioning (R146). -/
def execExecuteConditioning (rhraw traw : Word) (s : State) : Host.Outcome State Fault Refusal :=
  s.withSession false (s.command Config.cmdConditioning (some (rhraw, traw)))

/-- measure-raw-signal (R147). -/
def execMeasureRawSignal (rhraw traw : Word) (s : State) : Host.Outcome State Fault Refusal :=
  s.withSession false (s.command Config.cmdMeasureRaw (some (rhraw, traw)))

/-- turn-heater-off (R148): "valid from any state". -/
def execTurnHeaterOff (s : State) : Host.Outcome State Fault Refusal :=
  s.withSession true (s.command Config.cmdHeaterOff none)

end Sys2Proof.Machine
end

