-- ==== Sys2Proof/Machine/Dispatch.lean ====
section
/-! DEFINITION. One arm for each constructor of `Instr`. -/

namespace Sys2Proof.Machine

def exec (i : Instr) (s : State) : Host.Outcome State Fault Refusal :=
  match i with
  | .crcinit => Sys2Proof.Machine.execCrcinit s
  | .crcupd byte => Sys2Proof.Machine.execCrcupd byte s
  | .resolve code var => Sys2Proof.Machine.execResolve code var s
  | .build code rhp tp rhraw traw => Sys2Proof.Machine.execBuild code rhp tp rhraw traw s
  | .parse elen ver => Sys2Proof.Machine.execParse elen ver s
  | .rawrh val => Sys2Proof.Machine.execRawrh val s
  | .rawt val => Sys2Proof.Machine.execRawt val s
  | .rxwr idx byte => Sys2Proof.Machine.execRxwr idx byte s
  | .txrd idx => Sys2Proof.Machine.execTxrd idx s
  | .getSerialNumber => Sys2Proof.Machine.execGetSerialNumber s
  | .executeSelfTest => Sys2Proof.Machine.execExecuteSelfTest s
  | .executeConditioning rhraw traw => Sys2Proof.Machine.execExecuteConditioning rhraw traw s
  | .measureRawSignal rhraw traw => Sys2Proof.Machine.execMeasureRawSignal rhraw traw s
  | .turnHeaterOff => Sys2Proof.Machine.execTurnHeaterOff s

end Sys2Proof.Machine
end

