-- ==== Sys2Proof/Machine/HostMoves.lean ====
section
/-! DEFINITION. The moves of the host (R210): presenting a request word or a frame, the session operations in whole units (R144
to R149), the construction of a session (R143), the reset event (R190), the interactions of a command one by one (R210), and
the pseudo-instructions (R83). -/

namespace Sys2Proof.Machine

/-- Step 1 of R151: `RAWRH`, then `RAWT`, each of which may end the operation with `OutOfRange`; then the rest with the two
raw values. -/
def State.withTransforms (s : State) (rh t : Word) (rest : State → Word → Word → State) : State :=
  match s.setRaw (rawHumidity (sint16 rh)) with
  | .error f => (s.takeFault f).returns (.failed (.block f))
  | .ok s1 =>
    match s1.complete.setRaw (rawTemperature (sint16 t)) with
    | .error f => (s1.takeFault f).returns (.failed (.block f))
    | .ok s2 => rest s2.complete s1.raw s2.raw

/-- A session operation (R144 to R149). -/
def runOperation (op : SessionOp) (s : State) : Host.Outcome State Fault Refusal :=
  match op with
  | .getId => s.withSession false (s.command Config.cmdGetSerial none)
  | .selfTest => s.withSession false (s.command Config.cmdSelfTest none)
  | .condition rh t =>
    s.withSession false fun sess =>
      s.withTransforms rh t fun u rr tr => u.command Config.cmdConditioning (some (rr, tr)) sess
  | .measure rh t =>
    s.withSession false fun sess =>
      s.withTransforms rh t fun u rr tr => u.command Config.cmdMeasureRaw (some (rr, tr)) sess
  | .heaterOff => s.withSession true (s.command Config.cmdHeaterOff none)
  | .getSensorId => s.withSession true fun sess => s.returns (.sensorId sess.variant)

/-- `execute_conditioning()` with the defaults 50 % and 25 degrees (R9, R146). -/
def SessionOp.conditionDefault : SessionOp := .condition Config.rhDefault Config.tDefault

/-- `measure_raw_signal()` with the defaults (R9, R147). -/
def SessionOp.measureDefault : SessionOp := .measure Config.rhDefault Config.tDefault

/-- The variant an identifier names, none for any but 0 and 1 (R78, R143). -/
def variantOfId (n : Int) : Option Variant :=
  if n = 0 then some .variant0 else if n = 1 then some .variant1 else none

/-- The construction of a session (R143): on a wrong address or variant no session exists afterwards. DESIGN CHOICE (log 19): the
earlier session is gone, and with it a command it was in the middle of, so the new session can start one at once. -/
def State.construct (s : State) (addr variant : Int) (verify : Bool) : State :=
  match variantOfId variant with
  | some v =>
    if addr = (Config.busAddr.toNat : Int) then (s.setSession (Session.fresh v verify)).returns .constructed
    else { s with session := none }.returns (.failed .invalidArgument)
  | none => { s with session := none }.returns (.failed .invalidArgument)

/-- What was presented is executed. A reserved `OP` takes the fault `IllegalRequest` (R79). A frame with an unknown code ends
as the common sequence ends on it (R151 step 2, R152). A known code in the other format runs the common sequence with that
frame, which `BUILD` serialises as any other (R63, R111). Any other bytes are handed to the transport as they are (R150).
What the sensor makes of either is under no law (R155, U13; log 16). -/
def present (p : Presented) (s : State) : Host.Outcome State Fault Refusal :=
  match decode p with
  | .ok i => exec i s
  | .error (.reservedOp _) => .next (s.takeFault .illegalRequest)
  | .error (.unknownCode code) => s.withSession false (s.command code none)
  | .error (.wrongShape cmd params) =>
    s.withSession (cmd == .turnHeaterOff) (s.command (codeOfCommand cmd) params)
  | .error (.badChecksum bytes) => s.sendBytes bytes
  | .error (.badLength bytes) => s.sendBytes bytes

/-- One move of the host. -/
def perform (m : Move) (s : State) : Host.Outcome State Fault Refusal :=
  match m with
  | .present p => present p s
  | .operate op => runOperation op s
  | .construct addr variant verify => .next (s.construct addr variant verify)
  | .reset => .next s.resetBlock
  | .send => s.sendFrame
  | .wait ms => .next (s.record (.wait ms))
  | .receive => s.withSession true s.readResponse
  | .decode skip => s.withSession true (s.decodeResponse skip)

/-- The next move, taken out of the inbox; none at the end of the host's program (R212). -/
def State.takeMove (s : State) : Option (Move × State) :=
  match s.inbox with
  | [] => none
  | m :: rest => some (m, { s with inbox := rest })

/-! ### Pseudo-instructions (R83) -/

/-- `CHECKSUM [b0, …]`. -/
def pseudoChecksum (bytes : List Byte) : List Instr :=
  .crcinit :: bytes.map .crcupd

/-- `RXLOAD [b0, …]` of at most nine bytes. -/
def pseudoRxload (bytes : List Byte) : List Instr :=
  bytes.zipIdx.map fun p => .rxwr (BitVec.ofNat 4 p.2) p.1

/-- `TXDUMP` where `TXLEN` is `n`. -/
def pseudoTxdump (n : Nat) : List Instr :=
  (List.range n).map fun i => .txrd (BitVec.ofNat 4 i)

/-- The moves that present a list of instructions in order. -/
def movesOf (is : List Instr) : List Move :=
  is.map fun i => .present (encode i)

end Sys2Proof.Machine
end

