-- ==== Sys2Proof/Machine/Step.lean ====
section
/-! DEFINITION. One step: the next move of the host is taken and performed (R14, R49); where the host has no move left the
block stays as it is (R212). -/

namespace Sys2Proof.Machine

/-- One step of the machine. -/
def step (s : State) : Host.Outcome State Fault Refusal :=
  match s.takeMove with
  | none => .next s
  | some (m, t) => perform m t

/-- The state in which the next step presents the instruction with the bits `w` (log 6). -/
def State.withFetchWord (s : State) (nbits w : Nat) : State :=
  { s with inbox := .present (presentedOfBits nbits w) :: s.inbox }

end Sys2Proof.Machine
end

