-- ==== Sys2Proof/WellFormed.lean ====
section
/-! DEFINITION. Which instructions carry only operand values the spec calls legal (R76, R80, R81, R207). An instruction that
is not well formed still runs: R80 and R81 say what each does. -/

namespace Sys2Proof

open Machine

/-- A known command that the variant supports (R80 b and c). -/
def supported (code : Word) (var : Variant) : Bool :=
  match commandOfCode code with
  | none => false
  | some .executeConditioning => var == .variant1
  | some _ => true

/-- The operand check, constructor by constructor. -/
def Instr.wellFormed : Instr → Bool
  | .crcinit => true
  | .crcupd _ => true
  | .resolve code var => supported code var
  | .build _ rhp tp _ _ => rhp == tp
  | .parse elen _ => legalLength elen
  | .rawrh val => (rawHumidity (sint16 val)).isSome
  | .rawt val => (rawTemperature (sint16 val)).isSome
  | .rxwr idx _ => idx.toNat < rxCap
  | .txrd idx => idx.toNat < txCap
  | .getSerialNumber => true
  | .executeSelfTest => true
  | .executeConditioning _ _ => true
  | .measureRawSignal _ _ => true
  | .turnHeaterOff => true

/-- A well-formed instruction (a decidable proposition). -/
abbrev Instr.WellFormed (i : Instr) : Prop := i.wellFormed = true

end Sys2Proof
end

