-- ==== Sys2Proof/Safety.lean ====
section
/-! DEFINITION. What counts as a sound state and a safe run: the invariant of the reachable states (R36), the heater duty on
traces (R153, R208), runs of instruction lists, and the relation a completed wire command establishes (R151). -/

namespace Sys2Proof.Machine

/-! ### Requests and runs -/

/-- Whether an instruction is one of the nine requests of the block (R70), not a wire command. -/
def isRequest : Instr → Bool
  | .crcinit => true
  | .crcupd _ => true
  | .resolve _ _ => true
  | .build _ _ _ _ _ => true
  | .parse _ _ => true
  | .rawrh _ => true
  | .rawt _ => true
  | .rxwr _ _ => true
  | .txrd _ => true
  | .getSerialNumber => false
  | .executeSelfTest => false
  | .executeConditioning _ _ => false
  | .measureRawSignal _ _ => false
  | .turnHeaterOff => false

/-- Instructions one after another, stopping at the first fault or refusal (R49: each sees every effect of the earlier). -/
def runInstrs : List Instr → State → Host.Outcome State Fault Refusal
  | [], s => .next s
  | i :: is, s =>
    match exec i s with
    | .next t => runInstrs is t
    | .fault r => .fault r
    | .refused r => .refused r

/-- The outcome with its next state changed. -/
def mapNext (f : State → State) : Host.Outcome State Fault Refusal → Host.Outcome State Fault Refusal
  | .next t => .next (f t)
  | .fault r => .fault r
  | .refused r => .refused r

/-- The byte an instruction feeds to the checksum (R94). -/
def fedByte : Instr → Option Byte
  | .crcupd b => some b
  | .crcinit => none
  | .resolve _ _ => none
  | .build _ _ _ _ _ => none
  | .parse _ _ => none
  | .rawrh _ => none
  | .rawt _ => none
  | .rxwr _ _ => none
  | .txrd _ => none
  | .getSerialNumber => none
  | .executeSelfTest => none
  | .executeConditioning _ _ => none
  | .measureRawSignal _ _ => none
  | .turnHeaterOff => none

/-- The bytes a list of instructions feeds to the checksum, in order (R94). -/
def fedBytes (is : List Instr) : List Byte := is.filterMap fedByte

/-- The byte the last of a list of writes to index `j` stores, none where no write goes there (R49). -/
def lastWritten : List (BitVec 4 × Byte) → Nat → Option Byte
  | [], _ => none
  | (i, b) :: ws, j => (lastWritten ws j).or (if i.toNat = j then some b else none)

/-! ### Fields of a request word (R11) -/

/-- `REQ[lo+n-1:lo]` as a number (R11). -/
def reqBits (w : Req) (lo n : Nat) : Nat := w.toNat / 2 ^ lo % 2 ^ n

/-- `OP` (R68). -/
def opOf (w : Req) : Nat := reqBits w 52 4

/-- The bits of a request word that its format names (R71 to R77); the others are ignored (R68). -/
def usedBits (op : Nat) : Req :=
  match op with
  | 1 => 0xF00000000000FF
  | 2 => 0xF000000001FFFF
  | 3 => 0xF3FFFFFFFFFFFF
  | 4 => 0xF000000000001F
  | 5 => 0xF000000000FFFF
  | 6 => 0xF000000000FFFF
  | 7 => 0xF0000000000FFF
  | 8 => 0xF0000000000F00
  | _ => 0xF0000000000000

/-- How many bits an instruction is presented in. -/
def widthOf : Presented → Nat
  | .request _ => 56
  | .frame bytes => 8 * bytes.length

/-- The number those bits spell; of a frame, byte 0 stands highest (R61, R62). -/
def bitsOf : Presented → Nat
  | .request w => w.toNat
  | .frame bytes => bytes.foldl (fun n b => n * 256 + b.toNat) 0

/-- `sint16(v) = v[14:0] - 32768 * v[15]` (R12). -/
def twosComplement (v : Word) : Int := (v.toNat % 32768 : Nat) - 32768 * (v.toNat / 32768 : Nat)

/-- The remainder of a polynomial over the two-element field, the bits of `p`, of degree below `n + 8`, by
x^8 + x^5 + x^4 + 1 (`0x131`): long division from the highest term down. -/
def polyRemainder : Nat → Nat → Nat
  | 0, p => p
  | n + 1, p => polyRemainder n (if p.testBit (n + 8) then p ^^^ (0x131 <<< n) else p)

/-! ### Groups of a response (R64, R113) -/

/-- The data word of group `i` in `RX`: `hi * 256 + lo` (R11, R42). -/
def State.rxGroup (s : State) (i : Nat) : Word :=
  BitVec.ofNat 16 ((s.rxByte (3 * i)).toNat * 256 + (s.rxByte (3 * i + 1)).toNat)

/-- The checksum the block computes for group `i` (R113). -/
def State.rxComputed (s : State) (i : Nat) : Byte := crc8 [s.rxByte (3 * i), s.rxByte (3 * i + 1)]

/-- The checksum byte that stands in group `i` (R113). -/
def State.rxStored (s : State) (i : Nat) : Byte := s.rxByte (3 * i + 2)

/-- Byte `i` of an answer of the sensor (R34: any of nine bytes). -/
def answerByte (x : Exchange) (i : Nat) : Byte := (x.bytes.toList[i]?).getD 0

/-- Data word `i` of an answer (R42, R64). -/
def answerWord (x : Exchange) (i : Nat) : Word :=
  BitVec.ofNat 16 ((answerByte x (3 * i)).toNat * 256 + (answerByte x (3 * i + 1)).toNat)

/-- Group `i` of an answer carries its checksum (R64). -/
def answerIntact (x : Exchange) (i : Nat) : Prop :=
  crc8 [answerByte x (3 * i), answerByte x (3 * i + 1)] = answerByte x (3 * i + 2)

/-! ### Wire commands as the tables give them (R63, R101) -/

/-- The code and the compensation values of a wire command, none for a request (R63). -/
def wireParts : Instr → Option (Word × Option (Word × Word))
  | .getSerialNumber => some (Config.cmdGetSerial, none)
  | .executeSelfTest => some (Config.cmdSelfTest, none)
  | .executeConditioning rh t => some (Config.cmdConditioning, some (rh, t))
  | .measureRawSignal rh t => some (Config.cmdMeasureRaw, some (rh, t))
  | .turnHeaterOff => some (Config.cmdHeaterOff, none)
  | .crcinit => none
  | .crcupd _ => none
  | .resolve _ _ => none
  | .build _ _ _ _ _ => none
  | .parse _ _ => none
  | .rawrh _ => none
  | .rawt _ => none
  | .rxwr _ _ => none
  | .txrd _ => none

/-- Whether a variant has the command: only execute-conditioning lacks one (R63, R101). -/
def hasCommand (i : Instr) (v : Variant) : Bool :=
  match i with
  | .executeConditioning _ _ => v == .variant1
  | .crcinit => true
  | .crcupd _ => true
  | .resolve _ _ => true
  | .build _ _ _ _ _ => true
  | .parse _ _ => true
  | .rawrh _ => true
  | .rawt _ => true
  | .rxwr _ _ => true
  | .txrd _ => true
  | .getSerialNumber => true
  | .executeSelfTest => true
  | .measureRawSignal _ _ => true
  | .turnHeaterOff => true

/-- How many groups the response to a wire command has (R63, R101). -/
def responseGroups (i : Instr) (v : Variant) : Nat :=
  match i with
  | .getSerialNumber => 3
  | .executeSelfTest => 1
  | .executeConditioning _ _ => 1
  | .measureRawSignal _ _ => if v = .variant1 then 2 else 1
  | .turnHeaterOff => 0
  | .crcinit => 0
  | .crcupd _ => 0
  | .resolve _ _ => 0
  | .build _ _ _ _ _ => 0
  | .parse _ _ => 0
  | .rawrh _ => 0
  | .rawt _ => 0
  | .rxwr _ _ => 0
  | .txrd _ => 0

/-- The wait of a wire command in milliseconds (R101, R211). -/
def responseWait (i : Instr) (v : Variant) : Word :=
  match i with
  | .getSerialNumber => 1
  | .executeSelfTest => 320
  | .executeConditioning _ _ => 50
  | .measureRawSignal _ _ => if v = .variant1 then 50 else 30
  | .turnHeaterOff => 1
  | .crcinit => 0
  | .crcupd _ => 0
  | .resolve _ _ => 0
  | .build _ _ _ _ _ => 0
  | .parse _ _ => 0
  | .rawrh _ => 0
  | .rawt _ => 0
  | .rxwr _ _ => 0
  | .txrd _ => 0

/-- The state a wire command that was sent leaves the session in (R142). -/
def stateAfterSend (i : Instr) : SessionState :=
  match i with
  | .executeConditioning _ _ => .measuring
  | .measureRawSignal _ _ => .measuring
  | .crcinit => .idle
  | .crcupd _ => .idle
  | .resolve _ _ => .idle
  | .build _ _ _ _ _ => .idle
  | .parse _ _ => .idle
  | .rawrh _ => .idle
  | .rawt _ => .idle
  | .rxwr _ _ => .idle
  | .txrd _ => .idle
  | .getSerialNumber => .idle
  | .executeSelfTest => .idle
  | .turnHeaterOff => .idle

/-- A session exists and is not in the middle of a command (R142); a reset since the send has ended a command (R193). -/
structure Started (s : State) (sess : Session) : Prop where
  session : s.session = some sess
  ready : sess.sstate ≠ .awaitingResponse ∨ s.sentEpoch ≠ s.epoch

/-- When a wire command whose response has `n` groups completes: it can start, both transport calls succeed, and with
verification on every group of the answer is intact (R142, R151, R152). -/
structure Answers (s : State) (sess : Session) (x : Exchange) (n : Nat) : Prop where
  started : Started s sess
  answer : s.nextExchange = x
  written : x.writeOk = true
  received : x.readOk = true
  verified : sess.verify = true → ∀ i, i < n → answerIntact x i

/-- What a completed wire command with code `code`, frame `frame`, `n` groups and wait `ms` has done to the state `s` (R151):
frame in `TX`, response in `RX`, groups in `D` and `OK`, the transport calls in order, the session in `sstate`; no other
field changes but `results`. -/
structure CommandDone (s t : State) (code : Word) (frame : List Byte) (n : Nat) (ms : Word) (sess : Session) (x : Exchange)
    (sstate : SessionState) : Prop where
  tx : ∀ i, t.txByte i = (frame[i]?).getD (s.txByte i)
  rx : ∀ i, t.rxByte i = if i < 3 * n then answerByte x i else s.rxByte i
  data : ∀ i : Fin 3, t.d[i] = if i.val < n then answerWord x i else s.d[i]
  okBits : ∀ i : Fin 3, (t.ok[i] = true ↔ if i.val < n then answerIntact x i else s.ok[i] = true)
  rest : t = { s with
    tx := t.tx, rx := t.rx, d := t.d, ok := t.ok, results := t.results
    len := BitVec.ofNat 4 (3 * n)
    wait := ms
    txlen := BitVec.ofNat 4 frame.length
    ngrp := BitVec.ofNat 2 n
    rdata := (frame.getLast?).getD 0
    err := Err.clear
    session := some { sess with lastCmd := some code, sstate := sstate }
    exchanges := s.popExchange.exchanges
    draws := s.popExchange.draws
    sentEpoch := s.epoch
    trace := s.trace ++ [.write sess.addr frame true, .wait ms] ++
      if n = 0 then [] else
        [.read sess.addr (BitVec.ofNat 4 (3 * n)) (some ((List.range (3 * n)).map (answerByte x)))] }

/-- The moves of a host that goes through the common sequence one interaction at a time (R151, R210): the lookup, the frame
built and sent, the wait for the metadata's time, the response received and decoded. -/
def commandMoves (code : Word) (params : Option (Word × Word)) (v : Variant) (ms : Word) : List Move :=
  [.present (encode (.resolve code v)),
    .present (encode (.build code params.isSome params.isSome (params.getD (0, 0)).1 (params.getD (0, 0)).2)),
    .send, .wait ms, .receive, .decode false]

/-! ### The invariant -/

/-- The session state that goes with the last-issued command (R142, R151, R152). -/
def stateAfter : Option Word → SessionState
  | none => .idle
  | some code => endState code

/-- What holds in every state reachable from reset (R36, and the rules named). -/
structure Inv (s : State) : Prop where
  /-- The memories are in canonical form (R40). -/
  txWf : s.tx.wf txCap = true
  rxWf : s.rx.wf rxCap = true
  /-- `TXLEN` is 0, 2 or 8 (R24). -/
  txlenLegal : s.txlen = 0 ∨ s.txlen = 2 ∨ s.txlen = 8
  /-- The bytes of the frame were written by a `BUILD` (R24). -/
  txWritten : ∀ i, i < s.txlen.toNat → (s.tx.find? i).isSome = true
  /-- A parameter frame carries its two checksums (R36). -/
  frameGuarded : s.txlen = 8 →
    s.txByte 4 = crc8 [s.txByte 2, s.txByte 3] ∧ s.txByte 7 = crc8 [s.txByte 5, s.txByte 6]
  /-- `ERR.CAUSE` is in 0..6, and the other fields are zero but for a checksum mismatch (R31, R36). -/
  causeLegal : s.err.cause ≠ 7
  noInfo : s.err.cause ≠ 5 → s.err.gidx = 0 ∧ s.err.exp = 0 ∧ s.err.cmp = 0
  mismatchInfo : s.err.cause = 5 → s.err.gidx ≠ 3 ∧ s.err.exp ≠ s.err.cmp
  /-- A session has the one address, and either awaits the response to its last command or is in the state that command
  leaves it in (R141, R142, R152). -/
  sessionLegal : ∀ sess, s.session = some sess → sess.addr = 0x59 ∧
    (sess.sstate = stateAfter sess.lastCmd ∨ sess.sstate = .awaitingResponse ∧ sess.lastCmd.isSome = true)
  /-- The latest send came in an epoch that has begun (R193, log 25). -/
  sentLegal : s.sentEpoch ≤ s.epoch

/-! ### The heater duty (R153, R208) -/

/-- Whether a frame's code names a heating command (R142: measure-raw-signal and execute-conditioning). -/
def heatingFrame (bytes : List Byte) : Bool :=
  frameCode bytes == some Config.cmdMeasureRaw || frameCode bytes == some Config.cmdConditioning

/-- Whether a frame is that of turn-heater-off (R148), which turns the heater off where it arrives. -/
def coolingFrame (bytes : List Byte) : Bool := bytes == frameBytes Config.cmdHeaterOff none

/-- Whether a frame is that of get-serial-number or execute-self-test (R144, R145), which leave the heater as it is. -/
def neutralFrame (bytes : List Byte) : Bool :=
  bytes == frameBytes Config.cmdGetSerial none || bytes == frameBytes Config.cmdSelfTest none

/-- Whether the heater may be on after an event: only a successful turn-heater-off surely turns it off (R148, R152), and every
attempt to write another frame may turn it on, but for the two neutral ones. DESIGN CHOICE (log 23): the sensor's reaction to
a frame no command has is not given (U13), so such a frame may turn it on too. -/
def heatAfter (on : Bool) : BusEvent → Bool
  | .write _ bytes ok => if coolingFrame bytes then on && !ok else if neutralFrame bytes then on else true
  | .wait _ => on
  | .read _ _ _ => on

/-- Whether the heater may be on at the end of a trace. DESIGN CHOICE (log 23): before the first event it counts as off, which
the spec does not say (R193: a reset does not turn it off; R195: a careful host issues turn-heater-off first). -/
def heaterMayBeOn (trace : List BusEvent) : Bool := trace.foldl heatAfter false

/-- The session has sent a heating command and has not successfully sent turn-heater-off since. -/
def HeatingUnclosed (trace : List BusEvent) : Prop :=
  ∃ before addr bytes after, trace = before ++ .write addr bytes true :: after ∧ heatingFrame bytes = true ∧
    ∀ a b, BusEvent.write a b true ∈ after → coolingFrame b = false

/-- The least time in milliseconds the heater has been on without a break at the end of a trace: the waits since it was last
surely off. DESIGN CHOICE (log 23): before the first event the heater counts as off, for 0 milliseconds. -/
def heatMs (trace : List BusEvent) : Nat :=
  (trace.foldl (fun (p : Bool × Nat) e =>
    let on := heatAfter p.1 e
    (on, if on then p.2 + (match e with | .wait ms => ms.toNat | _ => 0) else 0)) (false, 0)).2

/-- The heater duty of a finished host program: at no point of the trace has the heater been on for longer than
`MAX_HEAT_MS`, and at its end it is off (R153, R208). Times are lower bounds (log 21). What the heater did before the trace
is not counted (log 23). DESIGN CHOICE (log 23): the duty begins with the first transport write that may heat. A `CONDITION` or
`MEASURE` that faults before its write (`OutOfRange`, `UnsupportedOnVariant`; R152: nothing was sent) leaves no event, so such a
call owes no turn-heater-off by itself, and takes away none that an earlier write owes; R153 and R208 do not say whether their
"error paths" mean that path too. -/
def HeatDuty (trace : List BusEvent) : Prop :=
  heaterMayBeOn trace = false ∧ ∀ n, heatMs (trace.take n) ≤ Config.maxHeatMs

end Sys2Proof.Machine
end

