-- ==== Sys2Proof/Certificates/Slice0/Obligations.lean ====
section
/-! DEFINITION. The statements for the provers. A docstring names the rule of `spec/` a statement formalises, or says that it is
derived and from what. -/

open Sys2Proof Sys2Proof.Machine

/-! ### Encoding -/

/-- Derived (30_encoding.md sections 1 and 4): the decoder reads back every instruction the encoder writes, whatever its
operands. -/
def Obligations.DecodeReadsBackEncode : Prop :=
  ∀ i : Instr, decode (encode i) = .ok i

/-- R79: `OP` 9 to 15 and the buffer indices past the end give `IllegalRequest` and change nothing but `ERR`; every other
request word decodes; bits a format does not name change nothing. -/
def Obligations.RequestWordsAreTotal : Prop :=
  (∀ (w : Req) (s : State), 9 ≤ opOf w → present (.request w) s = .next { s with err := ⟨6, 0, 0, 0⟩ }) ∧
  (∀ (w : Req) (s : State), opOf w = 7 → 8 < reqBits w 8 4 →
    present (.request w) s = .next { s with err := ⟨6, 0, 0, 0⟩ }) ∧
  (∀ (w : Req) (s : State), opOf w = 8 → 7 < reqBits w 8 4 →
    present (.request w) s = .next { s with err := ⟨6, 0, 0, 0⟩ }) ∧
  (∀ w : Req, (∃ i, decode (.request w) = .ok i ∧ isRequest i = true) ↔ opOf w ≤ 8) ∧
  (∀ w w' : Req, w &&& usedBits (opOf w) = w' &&& usedBits (opOf w) → decode (.request w) = decode (.request w'))

/-- Derived (30_encoding.md sections 1 and 4): what a request word decodes to is written back with the ignored bits zero, and
what a frame decodes to is written back as that frame. That a frame of another shape or with a wrong checksum decodes to no
instruction is the model's choice (log 16). -/
def Obligations.EncodeWritesBackDecode : Prop :=
  (∀ (w : Req) (i : Instr), decode (.request w) = .ok i → encode i = .request (w &&& usedBits (opOf w))) ∧
  (∀ (bytes : List Byte) (i : Instr), decode (.frame bytes) = .ok i → encode i = .frame bytes)

/-- Derived (30_encoding.md sections 1 and 6): the nine request words written out in section 6, and one bare and one parameter
frame given as numbers, decode to the instructions they stand for. That byte 0 of such a number stands highest is the model's
reading (log 15). -/
def Obligations.WrittenOutWordsDecode : Prop :=
  decodeTableWord 56 0x100000000000BE = some (.crcupd 0xBE) ∧
  decodeTableWord 56 0x2000000001280E = some (.resolve 0x280E .variant1) ∧
  decodeTableWord 56 0x3000000000280E = some (.build 0x280E false false 0 0) ∧
  decodeTableWord 56 0x3366660CCD2612 = some (.build 0x2612 true true 0x0CCD 0x6666) ∧
  decodeTableWord 56 0x40000000000013 = some (.parse 3 true) ∧
  decodeTableWord 56 0x50000000000032 = some (.rawrh 50) ∧
  decodeTableWord 56 0x6000000000FFD3 = some (.rawt (BitVec.ofInt 16 (-45))) ∧
  decodeTableWord 56 0x700000000002C6 = some (.rxwr 2 0xC6) ∧
  decodeTableWord 56 0x80000000000700 = some (.txrd 7) ∧
  decodeTableWord 16 Config.cmdGetSerial.toNat = some .getSerialNumber ∧
  decodeTableWord 64 (Config.cmdMeasureRaw.toNat * 2 ^ 48 + 0x0CCD3E666693) = some (.measureRawSignal 0x0CCD 0x6666)

/-! ### The step -/

/-- Derived (00_scope.md section 6, 20_memory.md section 5): a step runs the instruction decoded from what the host presents
next, with that move taken out of the inbox. The inbox is the model's (log 6). -/
def Obligations.StepRunsTheDecodedInstruction : Prop :=
  ∀ (s : State) (p : Presented) (rest : List Move) (i : Instr),
    s.inbox = .present p :: rest → decode p = .ok i → step s = exec i { s with inbox := rest }

/-- Derived (30_encoding.md section 4; log 6, log 15): from any state, the bits of any instruction, presented, run exactly that
instruction. -/
def Obligations.PresentedBitsRunTheirInstruction : Prop :=
  ∀ (i : Instr) (s : State),
    decodeTableWord (widthOf (encode i)) (bitsOf (encode i)) = some i ∧
    step (s.withFetchWord (widthOf (encode i)) (bitsOf (encode i))) = exec i s

/-- Derived (20_memory.md section 5; log 6): presenting a list of instructions and taking as many steps runs their meanings
one after another, each on the state the one before it left. -/
def Obligations.PresentedProgramRunsItsMeaningsInOrder : Prop :=
  ∀ (is : List Instr) (s t : State), runInstrs is { s with inbox := [] } = .next t →
    Sys2Proof.core.run is.length { s with inbox := movesOf is } = .next t

/-! ### The Checksum Unit -/

/-- R93: `CRCINIT` sets `CRC` to 0xFF, clears `ERR` and changes nothing else; that is the checksum of no bytes. -/
def Obligations.CrcinitLoadsTheInitialValue : Prop :=
  (∀ w : Req, opOf w = 0 → decode (.request w) = .ok .crcinit) ∧
  (∀ s : State, exec .crcinit s = .next { s with crc := 0xFF, err := ⟨0, 0, 0, 0⟩ }) ∧
  crc8 [] = 0xFF

/-- R94: with its corner cases (no other request disturbs the register; feeding the register itself gives 0; reset leaves
what `CRCINIT` would) and its example. -/
def Obligations.CrcupdFeedsOneByte : Prop :=
  (∀ w : Req, opOf w = 1 → decode (.request w) = .ok (.crcupd (BitVec.ofNat 8 (reqBits w 0 8)))) ∧
  (∀ (b : Byte) (s : State), exec (.crcupd b) s = .next { s with crc := crcStep s.crc b, err := ⟨0, 0, 0, 0⟩ }) ∧
  (∀ (i : Instr) (s t : State), isRequest i = true → i ≠ .crcinit → (∀ b, i ≠ .crcupd b) → exec i s = .next t →
    t.crc = s.crc) ∧
  (∀ c : Byte, crcStep c c = 0) ∧
  State.reset.crc = crcInitial ∧
  crcStep 0xFF 0xBE = 0x0C ∧ crcStep 0x0C 0xEF = 0x92

/-- R23: after `CRCINIT` and any requests without another `CRCINIT`, `CRC` is the checksum of the bytes fed; and a request
that is neither `CRCINIT` nor `CRCUPD` neither reads nor writes `CRC`. -/
def Obligations.CrcRegisterIsTheRunningChecksum : Prop :=
  (∀ (is : List Instr) (s : State), (∀ i ∈ is, isRequest i = true ∧ i ≠ .crcinit) →
    ∃ t, runInstrs (.crcinit :: is) s = .next t ∧ t.crc = crc8 (fedBytes is)) ∧
  (∀ (i : Instr) (s : State) (c : Byte), isRequest i = true → i ≠ .crcinit → (∀ b, i ≠ .crcupd b) →
    exec i { s with crc := c } = mapNext (fun t => { t with crc := c }) (exec i s) ∧
    ∃ t, exec i s = .next t ∧ t.crc = s.crc)

/-- Derived (40_checksum.md section 1, which supplies the algorithm from general knowledge; log 12): `crc8` of a non-empty
sequence is the remainder of its bits, the initial value added to the first byte, by x^8 + x^5 + x^4 + 1. -/
def Obligations.ChecksumIsThePolynomialRemainder : Prop :=
  ∀ (b : Byte) (bytes : List Byte),
    (crc8 (b :: bytes)).toNat =
      polyRemainder (8 * bytes.length + 8)
        (((b ^^^ 0xFF) :: bytes).foldl (fun n x => n * 256 + x.toNat) 0 * 256)

/-- Derived (40_checksum.md section 1, its facts b, c, e): `crc_step` depends on the exclusive or of its arguments only, is a
bijection in each, and data followed by its own checksum gives 0. -/
def Obligations.ChecksumStepIsABijection : Prop :=
  (∀ c b : Byte, crcStep c b = crcStep 0 (c ^^^ b)) ∧
  (∀ c : Byte, Function.Bijective (crcStep c)) ∧
  (∀ b : Byte, Function.Bijective fun c => crcStep c b) ∧
  (∀ bytes : List Byte, crc8 (bytes ++ [crc8 bytes]) = 0)

/-- Derived (40_checksum.md section 1, its fact d): each checksum value belongs to exactly 256 of the data pairs. -/
def Obligations.EachChecksumHas256Pairs : Prop :=
  ∀ v : Byte, ∃ f : Byte → Byte × Byte, Function.Injective f ∧
    ∀ p : Byte × Byte, crc8 [p.1, p.2] = v ↔ ∃ x, f x = p

/-- Derived (40_checksum.md section 1, its fact f): every change of one or two of the 24 bits of an intact group is detected. -/
def Obligations.OneAndTwoBitErrorsAreDetected : Prop :=
  ∀ (hi lo : Byte) (i j : Fin 24),
    let e : BitVec 24 := (1#24 <<< i.val) ||| (1#24 <<< j.val)
    let g : BitVec 24 := (hi ++ lo ++ crc8 [hi, lo]) ^^^ e
    crc8 [g.extractLsb' 16 8, g.extractLsb' 8 8] ≠ g.extractLsb' 0 8

/-! ### The Response Metadata Resolver -/

/-- R101, R104, R163, R164: `RESOLVE` writes `LEN` and `WAIT` of the whole table and changes nothing else, and each of its two
faults changes nothing but `ERR`. -/
def Obligations.ResolveReturnsTheTableEntry : Prop :=
  (∀ w : Req, opOf w = 2 → decode (.request w) =
    .ok (.resolve (BitVec.ofNat 16 (reqBits w 0 16)) (if reqBits w 16 1 = 1 then .variant1 else .variant0))) ∧
  ∀ s : State,
    (∀ v, exec (.resolve Config.cmdHeaterOff v) s = .next { s with len := 0, wait := 1, err := ⟨0, 0, 0, 0⟩ }) ∧
    (∀ v, exec (.resolve Config.cmdSelfTest v) s = .next { s with len := 3, wait := 320, err := ⟨0, 0, 0, 0⟩ }) ∧
    exec (.resolve Config.cmdConditioning .variant1) s =
      .next { s with len := 3, wait := 50, err := ⟨0, 0, 0, 0⟩ } ∧
    exec (.resolve Config.cmdMeasureRaw .variant0) s =
      .next { s with len := 3, wait := 30, err := ⟨0, 0, 0, 0⟩ } ∧
    exec (.resolve Config.cmdMeasureRaw .variant1) s =
      .next { s with len := 6, wait := 50, err := ⟨0, 0, 0, 0⟩ } ∧
    (∀ v, exec (.resolve Config.cmdGetSerial v) s = .next { s with len := 9, wait := 1, err := ⟨0, 0, 0, 0⟩ }) ∧
    exec (.resolve Config.cmdConditioning .variant0) s = .next { s with err := ⟨3, 0, 0, 0⟩ } ∧
    (∀ code v, code ≠ Config.cmdGetSerial → code ≠ Config.cmdSelfTest → code ≠ Config.cmdConditioning →
      code ≠ Config.cmdMeasureRaw → code ≠ Config.cmdHeaterOff →
      exec (.resolve code v) s = .next { s with err := ⟨2, 0, 0, 0⟩ })

/-- Derived (10_state.md sections 3 and 8): a successful `RESOLVE` leaves a row of the table in `LEN` and `WAIT`, and every
step but a reset keeps a row there. What a reset leaves in them is the model's (log 3). -/
def Obligations.MetadataStaysARowOfTheTable : Prop :=
  let row : State → Prop := fun s => (s.len, s.wait) ∈
    ([(0, 1), (3, 320), (3, 50), (3, 30), (6, 50), (9, 1)] : List (BitVec 4 × Word))
  (∀ code v s t, exec (.resolve code v) s = .next t → t.err.cause = 0 → row t) ∧
  (∀ s t, row s → (∀ rest, s.inbox ≠ .reset :: rest) → step s = .next t → row t)

/-! ### The Frame Codec -/

/-- R111: the frame in `TX`, its length in `TXLEN`, every other byte of `TX` and every other register as before. -/
def Obligations.BuildSerialisesTheFrame : Prop :=
  (∀ w : Req, opOf w = 3 → decode (.request w) =
    .ok (.build (BitVec.ofNat 16 (reqBits w 0 16)) (reqBits w 48 1 == 1) (reqBits w 49 1 == 1)
      (BitVec.ofNat 16 (reqBits w 16 16)) (BitVec.ofNat 16 (reqBits w 32 16)))) ∧
  ∀ (code : Word) (rhp tp : Bool) (rh t : Word) (s : State),
    let params : List Byte :=
      if rhp = true ∧ tp = true then
        [rh.extractLsb' 8 8, rh.extractLsb' 0 8, crc8 [rh.extractLsb' 8 8, rh.extractLsb' 0 8],
          t.extractLsb' 8 8, t.extractLsb' 0 8, crc8 [t.extractLsb' 8 8, t.extractLsb' 0 8]]
      else []
    let frame : List Byte := [code.extractLsb' 8 8, code.extractLsb' 0 8] ++ params
    ∃ u, exec (.build code rhp tp rh t) s = .next u ∧
      (∀ i, u.txByte i = (frame[i]?).getD (s.txByte i)) ∧
      u = { s with tx := u.tx, txlen := if rhp = true ∧ tp = true then 8 else 2, err := ⟨0, 0, 0, 0⟩ }

/-- R113, R165, R166: an illegal length faults before any byte is read; with verification on the first group whose checksum
differs faults and nothing is stored; otherwise every group is delivered and the entries past the last keep their
contents. -/
def Obligations.ParseSplitsAndChecksTheResponse : Prop :=
  (∀ w : Req, opOf w = 4 → decode (.request w) = .ok (.parse (BitVec.ofNat 4 (reqBits w 0 4)) (reqBits w 4 1 == 1))) ∧
  ∀ (elen : BitVec 4) (ver : Bool) (s : State),
    (elen ≠ 0 → elen ≠ 3 → elen ≠ 6 → elen ≠ 9 →
      exec (.parse elen ver) s = .next { s with err := ⟨4, 0, 0, 0⟩ }) ∧
    (∀ n, n ≤ 3 → elen.toNat = 3 * n → (ver = true → ∀ i, i < n → s.rxStored i = s.rxComputed i) →
      ∃ t, exec (.parse elen ver) s = .next t ∧
        (∀ i : Fin 3, t.d[i] = if i.val < n then s.rxGroup i else s.d[i]) ∧
        (∀ i : Fin 3, t.ok[i] = if i.val < n then decide (s.rxComputed i = s.rxStored i) else s.ok[i]) ∧
        t = { s with ngrp := BitVec.ofNat 2 n, d := t.d, ok := t.ok, err := ⟨0, 0, 0, 0⟩ }) ∧
    (∀ n i, n ≤ 3 → elen.toNat = 3 * n → i < n → ver = true → (∀ j, j < i → s.rxStored j = s.rxComputed j) →
      s.rxStored i ≠ s.rxComputed i →
      exec (.parse elen ver) s = .next { s with err := ⟨5, BitVec.ofNat 2 i, s.rxStored i, s.rxComputed i⟩ })

/-- R116: one byte of `RX` is written, every other byte and register is as before; past the end of `RX` nothing changes but
`ERR`. -/
def Obligations.RxwrStoresOneByte : Prop :=
  (∀ w : Req, opOf w = 7 → decode (.request w) =
    .ok (.rxwr (BitVec.ofNat 4 (reqBits w 8 4)) (BitVec.ofNat 8 (reqBits w 0 8)))) ∧
  ∀ (idx : BitVec 4) (b : Byte) (s : State),
    (idx.toNat ≤ 8 → ∃ t, exec (.rxwr idx b) s = .next t ∧
      (∀ i, t.rxByte i = if i = idx.toNat then b else s.rxByte i) ∧
      t = { s with rx := t.rx, err := ⟨0, 0, 0, 0⟩ }) ∧
    (8 < idx.toNat → exec (.rxwr idx b) s = .next { s with err := ⟨6, 0, 0, 0⟩ })

/-- R117: `RDATA` takes the byte of `TX`; past the end of `TX` nothing changes but `ERR`. -/
def Obligations.TxrdFetchesOneByte : Prop :=
  (∀ w : Req, opOf w = 8 → decode (.request w) = .ok (.txrd (BitVec.ofNat 4 (reqBits w 8 4)))) ∧
  ∀ (idx : BitVec 4) (s : State),
    (idx.toNat ≤ 7 → exec (.txrd idx) s = .next { s with rdata := s.txByte idx.toNat, err := ⟨0, 0, 0, 0⟩ }) ∧
    (7 < idx.toNat → exec (.txrd idx) s = .next { s with err := ⟨6, 0, 0, 0⟩ })

/-- Derived (20_memory.md section 5): a `TXRD` after a `BUILD` returns the byte that `BUILD` wrote, and a `PARSE` after
any `RXWR`s, in any order and any number, sees exactly the byte last written to each index: its data words are the pairs of
those bytes, its match bits compare `crc8` of the pairs with the third bytes, and with verification on the first pair that
differs is what it reports. -/
def Obligations.ReadsSeeTheLatestWrites : Prop :=
  (∀ (code rh t : Word) (rhp tp : Bool) (i : BitVec 4) (s : State) (b : Byte),
    (frameBytes code (suppliedParams rhp tp rh t))[i.toNat]? = some b →
    ∃ u, runInstrs [.build code rhp tp rh t, .txrd i] s = .next u ∧ u.rdata = b) ∧
  (∀ (ws : List (BitVec 4 × Byte)) (s : State), (∀ w ∈ ws, w.1.toNat ≤ 8) →
    let held : Nat → Byte := fun j => (lastWritten ws j).getD (s.rxByte j)
    let intact : Nat → Prop := fun i => crc8 [held (3 * i), held (3 * i + 1)] = held (3 * i + 2)
    ∃ u, runInstrs (ws.map fun w => .rxwr w.1 w.2) s = .next u ∧ (∀ j, u.rxByte j = held j) ∧
      ∀ (n : Nat) (elen : BitVec 4) (ver : Bool), n ≤ 3 → elen.toNat = 3 * n →
        ((ver = true → ∀ i, i < n → intact i) →
          ∃ t, exec (.parse elen ver) u = .next t ∧ t.err = ⟨0, 0, 0, 0⟩ ∧ t.ngrp = BitVec.ofNat 2 n ∧
            ∀ i : Fin 3, i.val < n →
              t.d[i] = BitVec.ofNat 16 ((held (3 * i)).toNat * 256 + (held (3 * i + 1)).toNat) ∧
              (t.ok[i] = true ↔ intact i)) ∧
        (∀ i, ver = true → i < n → (∀ j, j < i → intact j) → ¬ intact i →
          exec (.parse elen ver) u = .next { u with
            err := ⟨5, BitVec.ofNat 2 i, held (3 * i + 2), crc8 [held (3 * i), held (3 * i + 1)]⟩ }))

/-- Derived (40_checksum.md section 3): the two parameter groups of a built frame, copied from `TX` to `RX` and parsed with
verification on, come back whole. -/
def Obligations.BuiltFrameParsesBack : Prop :=
  ∀ (code rh t : Word) (s : State), ∃ u v,
    exec (.build code true true rh t) s = .next u ∧
    runInstrs (pseudoRxload ((List.range 6).map fun i => u.txByte (i + 2)) ++ [.parse 6 true]) u = .next v ∧
    v.err = ⟨0, 0, 0, 0⟩ ∧ v.ngrp = 2 ∧ v.d[0] = rh ∧ v.d[1] = t ∧ v.ok[0] = true ∧ v.ok[1] = true

/-- Derived (60_exceptions.md section 4, 20_memory.md section 3): a second `PARSE` of unchanged bytes answers as the first. -/
def Obligations.ParseIsRepeatable : Prop :=
  ∀ (elen : BitVec 4) (ver : Bool) (s t : State), exec (.parse elen ver) s = .next t →
    exec (.parse elen ver) t = .next t

/-! ### The Value Transforms -/

/-- R132: the exact product rounded half away from zero, or `OutOfRange`. -/
def Obligations.RawrhScalesTheHumidity : Prop :=
  (∀ w : Req, opOf w = 5 → decode (.request w) = .ok (.rawrh (BitVec.ofNat 16 (reqBits w 0 16)))) ∧
  ∀ (val : Word) (s : State),
    (0 ≤ twosComplement val → twosComplement val ≤ 100 → ∃ r : Word,
      (r.toNat : ℤ) = ⌊(twosComplement val : ℚ) * 65535 / 1000 + 1 / 2⌋ ∧
      exec (.rawrh val) s = .next { s with raw := r, err := ⟨0, 0, 0, 0⟩ }) ∧
    (twosComplement val < 0 ∨ 100 < twosComplement val → exec (.rawrh val) s = .next { s with err := ⟨1, 0, 0, 0⟩ })

/-- R134: the exact product rounded half away from zero, or `OutOfRange`. -/
def Obligations.RawtScalesTheTemperature : Prop :=
  (∀ w : Req, opOf w = 6 → decode (.request w) = .ok (.rawt (BitVec.ofNat 16 (reqBits w 0 16)))) ∧
  ∀ (val : Word) (s : State),
    (-45 ≤ twosComplement val → twosComplement val ≤ 130 → ∃ r : Word,
      (r.toNat : ℤ) = ⌊((twosComplement val : ℚ) + 45) * (3744857142857 / 10000000000) + 1 / 2⌋ ∧
      exec (.rawt val) s = .next { s with raw := r, err := ⟨0, 0, 0, 0⟩ }) ∧
    (twosComplement val < -45 ∨ 130 < twosComplement val → exec (.rawt val) s = .next { s with err := ⟨1, 0, 0, 0⟩ })

/-- Derived (43_value_transforms.md sections 2 and 3): both transforms are strictly increasing on their ranges, and the
temperature's gives what the factor 65535 / 175 would. -/
def Obligations.TransformsAreStrictlyIncreasing : Prop :=
  (∀ (a b : Word) (s t u : State), exec (.rawrh a) s = .next t → exec (.rawrh b) s = .next u → t.err.cause = 0 →
    u.err.cause = 0 → twosComplement a < twosComplement b → t.raw.toNat < u.raw.toNat) ∧
  (∀ (a b : Word) (s t u : State), exec (.rawt a) s = .next t → exec (.rawt b) s = .next u → t.err.cause = 0 →
    u.err.cause = 0 → twosComplement a < twosComplement b → t.raw.toNat < u.raw.toNat) ∧
  (∀ (a : Word) (s t : State), exec (.rawt a) s = .next t → t.err.cause = 0 →
    (t.raw.toNat : ℤ) = ⌊((twosComplement a : ℚ) + 45) * (65535 / 175) + 1 / 2⌋)

/-! ### Faults, status, frames -/

/-- R171: a request that raises a cause writes `ERR` and nothing else. -/
def Obligations.FaultingRequestsChangeOnlyErr : Prop :=
  ∀ (i : Instr) (s t : State), isRequest i = true → exec i s = .next t → t.err.cause ≠ 0 → t = { s with err := t.err }

/-- R160: which request raises which cause, when, and what is recorded. -/
def Obligations.EachCauseIsRaisedWhereTheTableSays : Prop :=
  ∀ (w : Req) (s t : State), present (.request w) s = .next t →
    let val := twosComplement (BitVec.ofNat 16 (reqBits w 0 16))
    let code : Word := BitVec.ofNat 16 (reqBits w 0 16)
    let elen := reqBits w 0 4
    (t.err.cause = 1 ↔ opOf w = 5 ∧ (val < 0 ∨ 100 < val) ∨ opOf w = 6 ∧ (val < -45 ∨ 130 < val)) ∧
    (t.err.cause = 2 ↔ opOf w = 2 ∧ code ≠ Config.cmdGetSerial ∧ code ≠ Config.cmdSelfTest ∧
      code ≠ Config.cmdConditioning ∧ code ≠ Config.cmdMeasureRaw ∧ code ≠ Config.cmdHeaterOff) ∧
    (t.err.cause = 3 ↔ opOf w = 2 ∧ code = Config.cmdConditioning ∧ reqBits w 16 1 = 0) ∧
    (t.err.cause = 4 ↔ opOf w = 4 ∧ elen ≠ 0 ∧ elen ≠ 3 ∧ elen ≠ 6 ∧ elen ≠ 9) ∧
    (t.err.cause = 5 ↔ opOf w = 4 ∧ reqBits w 4 1 = 1 ∧ ∃ n i, n ≤ 3 ∧ elen = 3 * n ∧ i < n ∧
      s.rxStored i ≠ s.rxComputed i) ∧
    (t.err.cause = 6 ↔ 9 ≤ opOf w ∨ opOf w = 7 ∧ 8 < reqBits w 8 4 ∨ opOf w = 8 ∧ 7 < reqBits w 8 4) ∧
    t.err.cause ≠ 7 ∧
    (t.err.cause ≠ 5 → t.err.gidx = 0 ∧ t.err.exp = 0 ∧ t.err.cmp = 0) ∧
    (t.err.cause = 5 → ∃ i, t.err.gidx = BitVec.ofNat 2 i ∧ 3 * i < elen ∧ t.err.exp = s.rxStored i ∧
      t.err.cmp = s.rxComputed i ∧ t.err.exp ≠ t.err.cmp ∧ ∀ j, j < i → s.rxStored j = s.rxComputed j)

/-- R30: no request's behaviour depends on `OK` or on `ERR`: another `ERR` before it changes nothing after it, and other `OK`
bits before it change only the `OK` bits it keeps. -/
def Obligations.NoRequestDependsOnOkOrErr : Prop :=
  ∀ (i : Instr) (s : State), isRequest i = true →
    (∀ e : Err, exec i { s with err := e } = exec i s) ∧
    (∀ k : Vector Bool 3, ∃ t u, exec i s = .next t ∧ exec i { s with ok := k } = .next u ∧ u = { t with ok := u.ok } ∧
      ∀ j : Fin 3, u.ok[j] = t.ok[j] ∨ t.ok[j] = s.ok[j] ∧ u.ok[j] = k[j])

/-- Derived (60_exceptions.md section 7): every request word completes from every state, in a next state that differs only in
registers of the block. -/
def Obligations.EveryRequestWordCompletes : Prop :=
  ∀ (w : Req) (s : State), ∃ t, present (.request w) s = .next t ∧
    t.session = s.session ∧ t.results = s.results ∧ t.inbox = s.inbox ∧ t.exchanges = s.exchanges ∧ t.draws = s.draws ∧
    t.epoch = s.epoch ∧ t.sentEpoch = s.sentEpoch ∧ t.trace = s.trace

/-- Derived (10_state.md section 1, the column "written by"): each register changes under its own requests only. -/
def Obligations.RegistersHaveTheirWriters : Prop :=
  ∀ (i : Instr) (s t : State), isRequest i = true → exec i s = .next t →
    (t.crc ≠ s.crc → i = .crcinit ∨ ∃ b, i = .crcupd b) ∧
    ((∃ j, t.txByte j ≠ s.txByte j) ∨ t.txlen ≠ s.txlen → ∃ c p q r u, i = .build c p q r u) ∧
    ((∃ j, t.rxByte j ≠ s.rxByte j) → ∃ j b, i = .rxwr j b) ∧
    (t.len ≠ s.len ∨ t.wait ≠ s.wait → ∃ c v, i = .resolve c v) ∧
    (t.ngrp ≠ s.ngrp ∨ t.d ≠ s.d ∨ t.ok ≠ s.ok → ∃ n v, i = .parse n v) ∧
    (t.raw ≠ s.raw → (∃ v, i = .rawrh v) ∨ ∃ v, i = .rawt v) ∧
    (t.rdata ≠ s.rdata → ∃ j, i = .txrd j)

/-- Derived (20_memory.md section 1): `TX` is read by `TXRD` only and `RX` by `PARSE` only: another content of the buffer before
any other request changes nothing after it but the bytes of that buffer which the request keeps. -/
def Obligations.BuffersHaveOneReader : Prop :=
  (∀ (i : Instr) (s s' : State) (m : Memory), isRequest i = true → (∀ j, i ≠ .txrd j) → s' = { s with tx := m } →
    ∃ t u, exec i s = .next t ∧ exec i s' = .next u ∧ u = { t with tx := u.tx } ∧
      ∀ j, u.txByte j = t.txByte j ∨ t.txByte j = s.txByte j ∧ u.txByte j = s'.txByte j) ∧
  (∀ (i : Instr) (s s' : State) (m : Memory), isRequest i = true → (∀ n v, i ≠ .parse n v) → s' = { s with rx := m } →
    ∃ t u, exec i s = .next t ∧ exec i s' = .next u ∧ u = { t with rx := u.rx } ∧
      ∀ j, u.rxByte j = t.rxByte j ∨ t.rxByte j = s.rxByte j ∧ u.rxByte j = s'.rxByte j)

/-- Derived (30_encoding.md section 5, 60_exceptions.md section 1): a request with legal operands only can fault on a
checksum alone, and then it is a `PARSE` with verification on. -/
def Obligations.WellFormedRequestsFaultOnChecksumsOnly : Prop :=
  ∀ (i : Instr) (s t : State), i.WellFormed → isRequest i = true → exec i s = .next t →
    t.err.cause = 0 ∨ t.err.cause = 5 ∧ ∃ n, i = .parse n true

/-- Derived (30_encoding.md section 6): what the three pseudo-instructions do. -/
def Obligations.PseudoInstructionsDoTheirWork : Prop :=
  (∀ (bytes : List Byte) (s : State),
    runInstrs (pseudoChecksum bytes) s = .next { s with crc := crc8 bytes, err := ⟨0, 0, 0, 0⟩ }) ∧
  (∀ (bytes : List Byte) (s : State), bytes ≠ [] → bytes.length ≤ 9 → ∃ t, runInstrs (pseudoRxload bytes) s = .next t ∧
    (∀ i, t.rxByte i = (bytes[i]?).getD (s.rxByte i)) ∧ t = { s with rx := t.rx, err := ⟨0, 0, 0, 0⟩ }) ∧
  (∀ (n : Nat) (s : State), n < 8 → runInstrs (pseudoTxdump (n + 1)) s =
    .next { s with rdata := s.txByte n, err := ⟨0, 0, 0, 0⟩ })

/-! ### Reset -/

/-- R35: the values it gives. Of the registers it leaves unspecified nothing is stated (log 3, log 4). -/
def Obligations.ResetLeavesTheGivenValues : Prop :=
  State.reset.crc = 0xFF ∧ State.reset.txlen = 0 ∧ State.reset.ngrp = 0 ∧ State.reset.err.cause = 0 ∧
  State.reset.err.gidx = 0 ∧ State.reset.err.exp = 0 ∧ State.reset.err.cmp = 0

/-- Derived (70_reset_and_hazards.md section 1): a reset in a running system gives the block its reset values and leaves the
session and the transport alone, and the construction of a session leaves the block and the transport alone. How the model
holds the transport's answers, the host's moves and what it recorded is its own (log 6, log 7, log 20), and so are the number of
resets, which a reset raises by one (log 4), and the epoch noted at the latest send, which it keeps (log 25). -/
def Obligations.ResetAndConstructionAreIndependent : Prop :=
  (∀ s : State, ∃ t, perform .reset s = .next t ∧ t.crc = 0xFF ∧ t.txlen = 0 ∧ t.ngrp = 0 ∧ t.err = ⟨0, 0, 0, 0⟩ ∧
    t.session = s.session ∧ t.results = s.results ∧ t.exchanges = s.exchanges ∧ t.draws = s.draws ∧ t.trace = s.trace ∧
    t.inbox = s.inbox ∧ t.epoch = s.epoch + 1 ∧ t.sentEpoch = s.sentEpoch) ∧
  (∀ (a v : Int) (f : Bool) (s : State), ∃ t, perform (.construct a v f) s = .next t ∧
    t = { s with session := t.session, results := t.results })

/-! ### The Sensor Session -/

/-- Derived (44_sensor_commands.md section 1): only address 0x59 and the variant identifiers 0 and 1 give a session, which is
then `Idle`; otherwise the host raises `InvalidArgument` and no session exists. That a construction replaces an earlier
session is the model's choice (log 19). -/
def Obligations.ConstructionValidatesItsArguments : Prop :=
  ∀ (a v : Int) (f : Bool) (s : State),
    (a = 0x59 → v = 0 → perform (.construct a v f) s = .next { s with
      session := some ⟨0x59, .variant0, f, none, .idle⟩, results := s.results ++ [.constructed] }) ∧
    (a = 0x59 → v = 1 → perform (.construct a v f) s = .next { s with
      session := some ⟨0x59, .variant1, f, none, .idle⟩, results := s.results ++ [.constructed] }) ∧
    (a ≠ 0x59 ∨ v ≠ 0 ∧ v ≠ 1 → perform (.construct a v f) s = .next { s with
      session := none, results := s.results ++ [.failed .invalidArgument] })

/-- R149: `get_sensor_id` returns the variant and changes nothing else. -/
def Obligations.SensorIdIsAPureAccessor : Prop :=
  ∀ (s : State) (sess : Session), s.session = some sess →
    runOperation .getSensorId s = .next { s with results := s.results ++ [.sensorId sess.variant] }

/-- Derived (42_frame_codec.md section 4, 44_sensor_commands.md sections 2 and 3): get-serial-number, completed, returns the
three words in wire order; with all it does to the state. The form of the answers, the one atomic step and the epoch noted at
the send are the model's (log 7, log 8, log 25). -/
def Obligations.GetSerialNumberReturnsThreeWords : Prop :=
  ∀ (s : State) (sess : Session) (x : Exchange), Answers s sess x 3 →
    ∃ t, exec .getSerialNumber s = .next t ∧
      t.results = s.results ++ [.serialNumber (answerWord x 0) (answerWord x 1) (answerWord x 2)] ∧
      t.results = s.results ++ [.serialNumber t.d[0] t.d[1] t.d[2]] ∧
      CommandDone s t Config.cmdGetSerial
        [Config.cmdGetSerial.extractLsb' 8 8, Config.cmdGetSerial.extractLsb' 0 8] 3 1 sess x .idle

/-- Derived (42_frame_codec.md section 4, 44_sensor_commands.md sections 2 and 3): execute-self-test, completed, returns the
word of the response, and only `0xD400` reads as success; with all it does to the state. The form of the answers, the one
atomic step and the epoch noted at the send are the model's (log 7, log 8, log 25). -/
def Obligations.SelfTestReturnsItsCode : Prop :=
  (∀ (s : State) (sess : Session) (x : Exchange), Answers s sess x 1 →
    ∃ t, exec .executeSelfTest s = .next t ∧ t.results = s.results ++ [.selfTest (answerWord x 0)] ∧
      t.results = s.results ++ [.selfTest t.d[0]] ∧ t.err = ⟨0, 0, 0, 0⟩ ∧
      CommandDone s t Config.cmdSelfTest
        [Config.cmdSelfTest.extractLsb' 8 8, Config.cmdSelfTest.extractLsb' 0 8] 1 320 sess x .idle) ∧
  (∀ code : Word, selfTestPassed code = true ↔ code = 0xD400)

/-- Derived (44_sensor_commands.md section 2, 42_frame_codec.md section 4): execute-conditioning on Variant1, completed,
returns one VOC value and no NOx value and leaves the session `Measuring`; with all it does to the state. The form of the
answers, the one atomic step and the epoch noted at the send are the model's (log 7, log 8, log 25). -/
def Obligations.ConditioningReturnsVoc : Prop :=
  ∀ (s : State) (sess : Session) (x : Exchange) (rh t : Word), Answers s sess x 1 → sess.variant = .variant1 →
    ∃ u, exec (.executeConditioning rh t) s = .next u ∧ u.results = s.results ++ [.measured (answerWord x 0) none] ∧
      CommandDone s u Config.cmdConditioning (frameBytes Config.cmdConditioning (some (rh, t))) 1 50 sess x .measuring

/-- Derived (44_sensor_commands.md section 2, 42_frame_codec.md section 4): measure-raw-signal, completed, returns VOC on
Variant0 and VOC and NOx on Variant1 and leaves the session `Measuring`; with all it does to the state. The form of the
answers, the one atomic step and the epoch noted at the send are the model's (log 7, log 8, log 25). -/
def Obligations.MeasureReturnsVocAndNox : Prop :=
  ∀ (s : State) (sess : Session) (x : Exchange) (rh t : Word),
    (sess.variant = .variant0 → Answers s sess x 1 →
      ∃ u, exec (.measureRawSignal rh t) s = .next u ∧ u.results = s.results ++ [.measured (answerWord x 0) none] ∧
        CommandDone s u Config.cmdMeasureRaw (frameBytes Config.cmdMeasureRaw (some (rh, t))) 1 30 sess x .measuring) ∧
    (sess.variant = .variant1 → Answers s sess x 2 →
      ∃ u, exec (.measureRawSignal rh t) s = .next u ∧
        u.results = s.results ++ [.measured (answerWord x 0) (some (answerWord x 1))] ∧
        CommandDone s u Config.cmdMeasureRaw (frameBytes Config.cmdMeasureRaw (some (rh, t))) 2 50 sess x .measuring)

/-- Derived (44_sensor_commands.md section 2): turn-heater-off completes from any session state when its write succeeds,
reads nothing, returns the empty result and leaves the session `Idle` and the heater off; when its write fails, the session
and what is known of the heater stay. That it ends with a `PARSE` of length 0 (log 10), the form of the answers, the one
atomic step and the epoch noted at the send (log 7, log 8, log 25) and the fold over the trace (log 23) are the model's. -/
def Obligations.HeaterOffWorksFromAnyState : Prop :=
  ∀ (s : State) (sess : Session), s.session = some sess →
    (s.nextExchange.writeOk = true → ∃ t, exec .turnHeaterOff s = .next t ∧ t.results = s.results ++ [.empty] ∧
      heaterMayBeOn t.trace = false ∧
      CommandDone s t Config.cmdHeaterOff
        [Config.cmdHeaterOff.extractLsb' 8 8, Config.cmdHeaterOff.extractLsb' 0 8] 0 1 sess s.nextExchange .idle) ∧
    (s.nextExchange.writeOk = false → ∃ t, exec .turnHeaterOff s = .next t ∧
      t.results = s.results ++ [.failed .busError] ∧ t.session = s.session ∧ heaterMayBeOn t.trace = heaterMayBeOn s.trace)

/-- Derived (44_sensor_commands.md section 3; log 7, log 8, log 10, log 25): what a command does to the block is what the requests of
the common sequence do one after another, on the answer of the sensor; and it touches the transport in the order of the
sequence. The form of the answer, the one atomic step, the `PARSE` of a response of length 0 and the epoch noted at the send are
the model's. -/
def Obligations.CommandIsItsRequestSequence : Prop :=
  ∀ (s r : State) (sess : Session) (i : Instr) (code : Word) (params : Option (Word × Word)),
    Started s sess → wireParts i = some (code, params) →
    s.nextExchange.writeOk = true → s.nextExchange.readOk = true →
    exec (.resolve code sess.variant) s = .next r → r.err.cause = 0 →
    let build : Instr := match params with
      | none => .build code false false 0 0
      | some (rh, t) => .build code true true rh t
    let requests := [.resolve code sess.variant, build] ++ pseudoTxdump (frameBytes code params).length ++
      pseudoRxload (s.nextExchange.bytes.toList.take r.len.toNat) ++ [.parse r.len sess.verify]
    ∃ t u, exec i s = .next t ∧ runInstrs requests s = .next u ∧
      t = { u with
        session := t.session, results := t.results, exchanges := t.exchanges, draws := t.draws, sentEpoch := s.epoch
        trace := t.trace } ∧
      t.trace = s.trace ++ [.write sess.addr (frameBytes code params) true, .wait r.wait] ++
        if r.len = 0 then [] else [.read sess.addr r.len (some (s.nextExchange.bytes.toList.take r.len.toNat))]

/-- Derived (44_sensor_commands.md sections 2 and 3; log 7, log 8): the frame a command writes to the bus is its encoding, byte for byte, and
it is written to the session's address before anything else. -/
def Obligations.SentFrameIsTheEncoding : Prop :=
  ∀ (s : State) (sess : Session) (i : Instr) (bytes : List Byte), Started s sess → encode i = .frame bytes →
    hasCommand i sess.variant = true →
    ∃ t rest, exec i s = .next t ∧ t.trace = s.trace ++ .write sess.addr bytes s.nextExchange.writeOk :: rest

/-- Derived (44_sensor_commands.md sections 1 and 3; log 7, log 8): once its frame is written, a command leaves the session in the state of
the table, with its code as the last one, whatever the read and the checksums bring. -/
def Obligations.SentCommandSetsTheSessionState : Prop :=
  ∀ (s : State) (sess : Session) (i : Instr) (code : Word) (params : Option (Word × Word)), Started s sess →
    wireParts i = some (code, params) → hasCommand i sess.variant = true → s.nextExchange.writeOk = true →
    ∃ t, exec i s = .next t ∧ t.session = some { sess with lastCmd := some code, sstate := stateAfterSend i }

/-- Derived (44_sensor_commands.md section 3; log 7, log 8): a failing write leaves the session as it was; a failing read leaves `RX` and the
decoded words as they were; both return `BusError`. -/
def Obligations.BusErrorsReachTheCaller : Prop :=
  ∀ (s : State) (sess : Session) (i : Instr) (code : Word) (params : Option (Word × Word)), Started s sess →
    wireParts i = some (code, params) → hasCommand i sess.variant = true →
    (s.nextExchange.writeOk = false → ∃ t, exec i s = .next t ∧
      t.results = s.results ++ [.failed .busError] ∧ t.session = s.session ∧
      t.trace = s.trace ++ [.write sess.addr (frameBytes code params) false] ∧
      (∀ j, t.rxByte j = s.rxByte j) ∧ t.ngrp = s.ngrp ∧ t.d = s.d ∧ t.ok = s.ok) ∧
    (s.nextExchange.writeOk = true → s.nextExchange.readOk = false → responseGroups i sess.variant ≠ 0 →
      ∃ t, exec i s = .next t ∧ t.results = s.results ++ [.failed .busError] ∧
      t.session = some { sess with lastCmd := some code, sstate := stateAfterSend i } ∧
      t.trace = s.trace ++ [.write sess.addr (frameBytes code params) true, .wait (responseWait i sess.variant),
        .read sess.addr (BitVec.ofNat 4 (3 * responseGroups i sess.variant)) none] ∧
      (∀ j, t.rxByte j = s.rxByte j) ∧ t.ngrp = s.ngrp ∧ t.d = s.d ∧ t.ok = s.ok)

/-- Derived (44_sensor_commands.md section 3, 60_exceptions.md section 1; log 7, log 8): with verification on, the first group of an answer
whose checksum differs is what the caller and `ERR` report, and no word of the answer is delivered. -/
def Obligations.CorruptAnswersAreReported : Prop :=
  ∀ (s : State) (sess : Session) (i : Instr) (code : Word) (params : Option (Word × Word)) (k : Nat), Started s sess →
    wireParts i = some (code, params) → hasCommand i sess.variant = true →
    s.nextExchange.writeOk = true → s.nextExchange.readOk = true → sess.verify = true →
    k < responseGroups i sess.variant → (∀ j, j < k → answerIntact s.nextExchange j) → ¬ answerIntact s.nextExchange k →
    let stored := answerByte s.nextExchange (3 * k + 2)
    let computed := crc8 [answerByte s.nextExchange (3 * k), answerByte s.nextExchange (3 * k + 1)]
    ∃ t, exec i s = .next t ∧
      t.results = s.results ++ [.failed (.block (.checksumMismatch (BitVec.ofNat 2 k) stored computed))] ∧
      t.err = ⟨5, BitVec.ofNat 2 k, stored, computed⟩ ∧ t.ngrp = s.ngrp ∧ t.d = s.d ∧ t.ok = s.ok ∧
      t.session = some { sess with lastCmd := some code, sstate := stateAfterSend i }

/-- Derived (44_sensor_commands.md sections 2 and 3): conditioning on Variant0 is never sent; the lookup fault is recorded and
returned, and nothing else changes. -/
def Obligations.UnsupportedConditioningIsNeverSent : Prop :=
  ∀ (s : State) (sess : Session) (rh t : Word), Started s sess → sess.variant = .variant0 →
    exec (.executeConditioning rh t) s = .next { s with
      err := ⟨3, 0, 0, 0⟩, results := s.results ++ [.failed (.block .unsupportedOnVariant)] }

/-- Derived (44_sensor_commands.md section 3, 60_exceptions.md section 3): the operations with compensation values run the two
transforms first, humidity before temperature; in range they go on as the wire command with the two raw values, out of range
they end there, before anything is looked up or sent. -/
def Obligations.TransformsComeBeforeTheCommand : Prop :=
  ∀ (s a b : State) (sess : Session) (rh t : Word), Started s sess →
    exec (.rawrh rh) s = .next a → exec (.rawt t) a = .next b →
    (a.err.cause = 0 → b.err.cause = 0 →
      runOperation (.measure rh t) s = exec (.measureRawSignal a.raw b.raw) b ∧
      runOperation (.condition rh t) s = exec (.executeConditioning a.raw b.raw) b) ∧
    (a.err.cause ≠ 0 →
      runOperation (.measure rh t) s = .next { a with results := s.results ++ [.failed (.block .outOfRange)] } ∧
      runOperation (.condition rh t) s = .next { a with results := s.results ++ [.failed (.block .outOfRange)] }) ∧
    (a.err.cause = 0 → b.err.cause ≠ 0 →
      runOperation (.measure rh t) s = .next { b with results := s.results ++ [.failed (.block .outOfRange)] } ∧
      runOperation (.condition rh t) s = .next { b with results := s.results ++ [.failed (.block .outOfRange)] })

/-- Derived (44_sensor_commands.md section 2): the operations without compensation values are their wire commands. -/
def Obligations.PlainOperationsAreTheirWireCommands : Prop :=
  ∀ s : State, runOperation .getId s = exec .getSerialNumber s ∧ runOperation .selfTest s = exec .executeSelfTest s ∧
    runOperation .heaterOff s = exec .turnHeaterOff s

/-- Derived (44_sensor_commands.md section 1, 93_implementation_defined.md part 1; log 17, log 18): where a wire command stops.
Without a session each faults by name, and so does every interaction with the transport; in the middle of another command, with
no reset since its send, all but turn-heater-off are refused by name, and so is a send of any other frame. -/
def Obligations.WireCommandsStopWithoutASession : Prop :=
  ∀ (s : State) (rh t : Word),
    (s.session = none →
      exec .getSerialNumber s = .fault .noSession ∧ exec .executeSelfTest s = .fault .noSession ∧
      exec (.executeConditioning rh t) s = .fault .noSession ∧ exec (.measureRawSignal rh t) s = .fault .noSession ∧
      exec .turnHeaterOff s = .fault .noSession ∧ perform .send s = .fault .noSession ∧
      perform .receive s = .fault .noSession ∧ ∀ skip, perform (.decode skip) s = .fault .noSession) ∧
    (∀ sess, s.session = some sess → sess.sstate = .awaitingResponse → s.sentEpoch = s.epoch →
      exec .getSerialNumber s = .refused .interleavedSequences ∧
      exec .executeSelfTest s = .refused .interleavedSequences ∧
      exec (.executeConditioning rh t) s = .refused .interleavedSequences ∧
      exec (.measureRawSignal rh t) s = .refused .interleavedSequences ∧
      (frameCode s.txFrame ≠ some Config.cmdHeaterOff → perform .send s = .refused .interleavedSequences))

/-- Derived (44_sensor_commands.md section 3, 30_encoding.md section 1, 93_implementation_defined.md part 1; log 7, log 16): what
becomes of a presented frame that is no instruction. An unknown code ends in `InvalidCommand` with nothing sent; a known code in
the other format is sent as it stands and leaves the session as the command does; any other bytes are handed to the transport
as they are, after which the session awaits the response to the code they begin with, if they are long enough for one. -/
def Obligations.FramesNoCommandHas : Prop :=
  (∀ (s : State) (sess : Session) (bytes : List Byte) (ch cl : Byte) (rest : List Byte), Started s sess →
    bytes = ch :: cl :: rest → rest.length = 0 ∨ rest.length = 6 → (∀ c, joinBytes ch cl ≠ codeOfCommand c) →
    present (.frame bytes) s = .next { s with
      err := ⟨2, 0, 0, 0⟩, results := s.results ++ [.failed (.block .invalidCommand)] }) ∧
  (∀ (s : State) (sess : Session) (cmd : WireCommand) (params : Option (Word × Word)), Started s sess →
    (params.isSome = true ↔ cmd ≠ .executeConditioning ∧ cmd ≠ .measureRawSignal) →
    (cmd = .executeConditioning → sess.variant = .variant1) →
    ∃ t rest, present (.frame (frameBytes (codeOfCommand cmd) params)) s = .next t ∧
      t.trace = s.trace ++ .write sess.addr (frameBytes (codeOfCommand cmd) params) s.nextExchange.writeOk :: rest ∧
      (s.nextExchange.writeOk = false → t.results = s.results ++ [.failed .busError] ∧ t.session = s.session ∧ rest = []) ∧
      (s.nextExchange.writeOk = true → t.session = some { sess with
        lastCmd := some (codeOfCommand cmd)
        sstate := if cmd = .executeConditioning ∨ cmd = .measureRawSignal then .measuring else .idle })) ∧
  (∀ (s : State) (sess : Session) (bytes : List Byte), Started s sess →
    bytes.length ≠ 2 ∧ bytes.length ≠ 8 ∨
      (∃ cmd rh rl rc th tl tc, bytes =
        hiByte (codeOfCommand cmd) :: loByte (codeOfCommand cmd) :: [rh, rl, rc, th, tl, tc] ∧
        (rc ≠ crc8 [rh, rl] ∨ tc ≠ crc8 [th, tl])) →
    let written : State := { s with
      exchanges := s.popExchange.exchanges, draws := s.popExchange.draws
      trace := s.trace ++ [.write sess.addr bytes s.nextExchange.writeOk] }
    (s.nextExchange.writeOk = false →
      present (.frame bytes) s = .next { written with results := s.results ++ [.failed .busError] }) ∧
    (s.nextExchange.writeOk = true → bytes.length < 2 → present (.frame bytes) s = .next written) ∧
    (s.nextExchange.writeOk = true → ∀ ch cl rest, bytes = ch :: cl :: rest →
      present (.frame bytes) s = .next { written with
        session := some { sess with lastCmd := some (joinBytes ch cl), sstate := .awaitingResponse }
        sentEpoch := s.epoch }))

/-! ### The interactions of a command one by one -/

/-- Derived (70_reset_and_hazards.md section 4, 30_encoding.md section 1; log 7, log 24, log 25): a frame built with any code in
either format can be sent. The send writes exactly the built bytes to the session's address; a success leaves the session
awaiting the response to that code, a failure returns `BusError` and leaves it as it was. It starts where a command can, and
that of turn-heater-off from any state. -/
def Obligations.SendWritesTheBuiltFrame : Prop :=
  ∀ (s : State) (sess : Session) (code rh t : Word) (rhp tp : Bool),
    Started s sess ∨ s.session = some sess ∧ code = Config.cmdHeaterOff →
    let frame := frameBytes code (if rhp = true ∧ tp = true then some (rh, t) else none)
    ∃ u v, exec (.build code rhp tp rh t) s = .next u ∧ perform .send u = .next v ∧
      v = { u with
        rdata := (frame.getLast?).getD 0, exchanges := v.exchanges, draws := v.draws, session := v.session
        results := v.results, sentEpoch := v.sentEpoch
        trace := s.trace ++ [.write sess.addr frame s.nextExchange.writeOk] } ∧
      (s.nextExchange.writeOk = true → v.results = s.results ∧
        v.session = some { sess with lastCmd := some code, sstate := .awaitingResponse } ∧ v.sentEpoch = s.epoch) ∧
      (s.nextExchange.writeOk = false → v.results = s.results ++ [.failed .busError] ∧ v.session = s.session ∧
        v.sentEpoch = s.sentEpoch)

/-- Derived (70_reset_and_hazards.md section 4, 42_frame_codec.md section 4, 44_sensor_commands.md section 3; log 7, log 24,
log 26): the interaction "receive" reads nothing for length 0, else exactly `LEN` bytes from the session's address into the
first bytes of `RX`; a failing read leaves `RX` as it was, returns `BusError` and ends the pending command. The interaction
"decode" performs `PARSE LEN, VERIFY`, returns the fault or else the view of `D[0..NGRP-1]` by the command last sent, and ends
the pending command; the host may skip the `PARSE` of an empty response, and of no other, which after turn-heater-off makes a
difference in `NGRP` and `ERR` only. The typed views are those of the five commands on their variants, each for its own number
of words, with a NOx value for measure-raw-signal on Variant1 only; any other response, and one before the first send, is
returned as its words. -/
def Obligations.ReceiveAndDecodeOneByOne : Prop :=
  (∀ (s : State) (sess : Session), s.session = some sess →
    let settled : Session :=
      { sess with sstate := if sess.sstate = .awaitingResponse then stateAfter sess.lastCmd else sess.sstate }
    (s.len = 0 → perform .receive s = .next s) ∧
    (s.len ≠ 0 → s.len.toNat ≤ 9 → s.nextExchange.readOk = true → ∃ t, perform .receive s = .next t ∧
      (∀ j, t.rxByte j = if j < s.len.toNat then answerByte s.nextExchange j else s.rxByte j) ∧
      t = { s with
        rx := t.rx, err := ⟨0, 0, 0, 0⟩, exchanges := s.popExchange.exchanges, draws := s.popExchange.draws
        trace := s.trace ++
          [.read sess.addr s.len (some ((List.range s.len.toNat).map (answerByte s.nextExchange)))] }) ∧
    (s.len ≠ 0 → s.nextExchange.readOk = false → perform .receive s = .next { s with
      session := some settled, results := s.results ++ [.failed .busError]
      exchanges := s.popExchange.exchanges, draws := s.popExchange.draws
      trace := s.trace ++ [.read sess.addr s.len none] }) ∧
    (∀ (skip : Bool) (p : State), skip = false ∨ s.len ≠ 0 → exec (.parse s.len sess.verify) s = .next p →
      (p.err.cause = 0 → perform (.decode skip) s = .next { p with
        session := some settled
        results := s.results ++ [viewOf sess.lastCmd sess.variant (p.d.toList.take p.ngrp.toNat)] }) ∧
      (p.err.cause ≠ 0 → ∃ f, p.err = errOfFault f ∧ perform (.decode skip) s = .next { p with
        session := some settled, results := s.results ++ [.failed (.block f)] })) ∧
    (s.len = 0 → perform (.decode true) s = .next { s with
      session := some settled, results := s.results ++ [viewOf sess.lastCmd sess.variant []] }) ∧
    (s.len = 0 → sess.lastCmd = some Config.cmdHeaterOff → ∃ t u, perform (.decode false) s = .next t ∧
      perform (.decode true) s = .next u ∧ t.results = s.results ++ [.empty] ∧ t.ngrp = 0 ∧ t.err = ⟨0, 0, 0, 0⟩ ∧
      u = { t with ngrp := s.ngrp, err := s.err })) ∧
  (∀ (v : Variant) (a b c : Word),
    viewOf (some Config.cmdGetSerial) v [a, b, c] = .serialNumber a b c ∧
    viewOf (some Config.cmdSelfTest) v [a] = .selfTest a ∧
    viewOf (some Config.cmdConditioning) .variant1 [a] = .measured a none ∧
    viewOf (some Config.cmdMeasureRaw) .variant0 [a] = .measured a none ∧
    viewOf (some Config.cmdMeasureRaw) .variant1 [a, b] = .measured a (some b) ∧
    viewOf (some Config.cmdHeaterOff) v [] = .empty) ∧
  (∀ (last : Option Word) (v : Variant) (words : List Word) (voc nox : Word),
    viewOf last v words = .measured voc (some nox) → v = .variant1 ∧ last = some Config.cmdMeasureRaw) ∧
  (∀ (last : Option Word) (v : Variant) (words : List Word),
    (∀ i code params, wireParts i = some (code, params) → hasCommand i v = true → last = some code →
      words.length ≠ responseGroups i v) →
    viewOf last v words = .untyped words)

/-- Derived (44_sensor_commands.md section 3, 70_reset_and_hazards.md section 4; log 7, log 8, log 24): a host that goes through
the common sequence one interaction at a time (lookup, build, send, wait, receive, decode) ends where the wire command ends, on
the same answers of the transport. -/
def Obligations.InteractionsMakeUpTheCommand : Prop :=
  ∀ (s : State) (sess : Session) (i : Instr) (code : Word) (params : Option (Word × Word)) (x : Exchange)
    (xs : List Exchange), Started s sess → wireParts i = some (code, params) → hasCommand i sess.variant = true →
    s.exchanges = x :: xs → x.writeOk = true → x.readOk = true →
    ∃ t u, exec i s = .next t ∧
      Sys2Proof.core.run 6 { s with
        inbox := commandMoves code params sess.variant (responseWait i sess.variant), exchanges := x :: x :: xs } =
        .next u ∧
      u = { t with inbox := [], exchanges := u.exchanges, draws := u.draws }

/-! ### Invariants -/

/-- Derived (10_state.md section 8; log 5, log 25): the invariant holds after reset. That a session exists there, and the epoch
noted at its latest send, are the model's. -/
def Obligations.ResetSatisfiesTheInvariant : Prop :=
  Inv State.reset

/-- Derived (10_state.md section 8, 44_sensor_commands.md section 1; log 24, log 25): every step, whatever the host's move, keeps
the invariant. That a session may await a response between two steps, and that the epoch noted at the latest send has begun, are
clauses about the model's own moves and field. -/
def Obligations.EveryStepKeepsTheInvariant : Prop :=
  ∀ s t : State, Inv s → step s = .next t → Inv t

/-- Derived (44_sensor_commands.md sections 1 and 4; log 23): a session in `Measuring`, or awaiting the response to a command that
leaves it there, has successfully sent a heating command that no successful turn-heater-off followed, so the heater may be on;
every step keeps that. The fold over the trace is the model's. -/
def Obligations.MeasuringMeansTheHeaterMayBeOn : Prop :=
  let heats : State → Prop := fun s =>
    ∀ sess, s.session = some sess →
      sess.sstate = .measuring ∨ sess.sstate = .awaitingResponse ∧ stateAfter sess.lastCmd = .measuring →
      HeatingUnclosed s.trace ∧ heaterMayBeOn s.trace = true
  heats State.reset ∧ ∀ s t : State, heats s → step s = .next t → heats t

/-- Derived (44_sensor_commands.md section 1, 90_conflicts.md C10): `Idle` does not prove the heater off: get-serial-number takes
a session from `Measuring` to `Idle` with the heater as it was. The fold over the trace is the model's (log 23). -/
def Obligations.IdleIsNoProofOfAColdHeater : Prop :=
  ∃ (s t : State) (sess : Session), s.session = some sess ∧ sess.sstate = .measuring ∧ heaterMayBeOn s.trace = true ∧
    exec .getSerialNumber s = .next t ∧ (∃ sess', t.session = some sess' ∧ sess'.sstate = .idle) ∧
    heaterMayBeOn t.trace = true
end

