-- ==== Sys2Proof/Laws/Config.lean ====
section
/-! SUPPORT. The five command codes differ (R9), and a code names its command back. -/

namespace Sys2Proof.Machine

theorem codeOfCommand_injective {a b : WireCommand} (h : codeOfCommand a = codeOfCommand b) : a = b := by
  cases a <;> cases b <;>
    simp [codeOfCommand, Config.cmdGetSerial, Config.cmdSelfTest, Config.cmdConditioning, Config.cmdMeasureRaw,
      Config.cmdHeaterOff] at h ⊢

theorem codeOfCommand_inj {a b : WireCommand} : codeOfCommand a = codeOfCommand b ↔ a = b :=
  ⟨codeOfCommand_injective, congrArg _⟩

@[simp] theorem commandOfCode_getSerial : commandOfCode Config.cmdGetSerial = some .getSerialNumber := by
  simp [commandOfCode, Config.cmdGetSerial, Config.cmdSelfTest, Config.cmdConditioning, Config.cmdMeasureRaw,
    Config.cmdHeaterOff]

@[simp] theorem commandOfCode_selfTest : commandOfCode Config.cmdSelfTest = some .executeSelfTest := by
  simp [commandOfCode, Config.cmdSelfTest, Config.cmdHeaterOff]

@[simp] theorem commandOfCode_conditioning : commandOfCode Config.cmdConditioning = some .executeConditioning := by
  simp [commandOfCode, Config.cmdSelfTest, Config.cmdConditioning, Config.cmdHeaterOff]

@[simp] theorem commandOfCode_measureRaw : commandOfCode Config.cmdMeasureRaw = some .measureRawSignal := by
  simp [commandOfCode, Config.cmdSelfTest, Config.cmdConditioning, Config.cmdMeasureRaw, Config.cmdHeaterOff]

@[simp] theorem commandOfCode_heaterOff : commandOfCode Config.cmdHeaterOff = some .turnHeaterOff := by
  simp [commandOfCode]

/-- The code of a command names it back. -/
theorem commandOfCode_codeOfCommand (cmd : WireCommand) : commandOfCode (codeOfCommand cmd) = some cmd := by
  cases cmd <;> simp [codeOfCommand]

/-- A code that names a command is that command's code. -/
theorem codeOfCommand_of_commandOfCode {code : Word} {cmd : WireCommand} (h : commandOfCode code = some cmd) :
    code = codeOfCommand cmd := by
  unfold commandOfCode at h
  split_ifs at h with h1 h2 h3 h4 h5 <;> cases h <;> simp [codeOfCommand, *]

/-- A code is unknown exactly when it is none of the five (R80 b). -/
theorem commandOfCode_eq_none {code : Word} :
    commandOfCode code = none ↔ ∀ cmd, code ≠ codeOfCommand cmd := by
  constructor
  · intro h cmd hc
    rw [hc, commandOfCode_codeOfCommand] at h
    cases h
  · intro h
    rcases hc : commandOfCode code with _ | cmd
    · rfl
    · exact absurd (codeOfCommand_of_commandOfCode hc) (h cmd)

/-- The bytes of a word, joined, are the word (R66). -/
@[simp] theorem joinBytes_split (v : Word) : joinBytes (hiByte v) (loByte v) = v := by
  apply BitVec.eq_of_getLsbD_eq
  intro i hi
  simp only [joinBytes, hiByte, loByte, BitVec.getLsbD_append, BitVec.getLsbD_extractLsb']
  split <;> rename_i h
  · simp [h]
  · have : i - 8 < 8 := by omega
    simp [this, show 8 + (i - 8) = i by omega]

@[simp] theorem hiByte_join (hi lo : Byte) : hiByte (joinBytes hi lo) = hi := by
  apply BitVec.eq_of_getLsbD_eq
  intro i h
  simp only [joinBytes, hiByte, BitVec.getLsbD_extractLsb', BitVec.getLsbD_append]
  simp [h]

@[simp] theorem loByte_join (hi lo : Byte) : loByte (joinBytes hi lo) = lo := by
  apply BitVec.eq_of_getLsbD_eq
  intro i h
  simp only [joinBytes, loByte, BitVec.getLsbD_extractLsb', BitVec.getLsbD_append]
  simp [h]

end Sys2Proof.Machine
end

