-- ==== Sys2Proof/Laws/Memory.lean ====
section
/-! SUPPORT. The laws of the byte spaces: read after write, every other byte left alone, and the canonical form kept. -/

namespace Sys2Proof.Machine

@[simp] theorem Memory.find?_nil (j : Nat) : Memory.find? [] j = none := rfl

/-- Reading the index just written gives the byte, reading another index gives what it gave. -/
theorem Memory.find?_write (m : Memory) (j : Nat) (b : Byte) (k : Nat) :
    (m.write j b).find? k = if k = j then some b else m.find? k := by
  induction m with
  | nil => by_cases h : k = j <;> simp [Memory.write, Memory.find?, h, Ne.symm]
  | cons c m ih =>
    obtain ⟨i, c⟩ := c
    unfold Memory.write
    by_cases h : k = j
    · subst h
      split
      · simp [Memory.find?]
      · split
        · simp [Memory.find?]
        · rename_i h2
          simp [Memory.find?, ih, Ne.symm h2]
    · have h' : ¬ j = k := fun e => h e.symm
      split
      · simp [Memory.find?, h']
      · split
        · rename_i h2
          subst h2
          simp [Memory.find?, h']
        · simp [Memory.find?, ih, h]

theorem Memory.find?_write_same (m : Memory) (j : Nat) (b : Byte) : (m.write j b).find? j = some b := by
  simp [Memory.find?_write]

theorem Memory.find?_write_other (m : Memory) {j k : Nat} (b : Byte) (h : k ≠ j) :
    (m.write j b).find? k = m.find? k := by
  simp [Memory.find?_write, h]

/-- Reading after a run of bytes was stored from `base` on. -/
theorem Memory.find?_store (bs : List Byte) (m : Memory) (base k : Nat) :
    (m.store base bs).find? k = if base ≤ k ∧ k < base + bs.length then bs[k - base]? else m.find? k := by
  induction bs generalizing m base with
  | nil =>
    have : ¬ (base ≤ k ∧ k < base) := by omega
    simp [Memory.store, this]
  | cons b bs ih =>
    rw [Memory.store, ih]
    by_cases h : k = base
    · subst h
      simp [Memory.find?_write]
    · by_cases h2 : base + 1 ≤ k ∧ k < base + 1 + bs.length
      · have h3 : base ≤ k ∧ k < base + (b :: bs).length := by simp; omega
        rw [if_pos h2, if_pos h3]
        have : k - base = (k - (base + 1)) + 1 := by omega
        rw [this, List.getElem?_cons_succ]
      · have h3 : ¬ (base ≤ k ∧ k < base + (b :: bs).length) := by simp; omega
        rw [if_neg h2, if_neg h3, Memory.find?_write_other _ _ h]

/-- What a state reads from a space after bytes were stored from index 0 on. -/
theorem Memory.getD_find?_store (m : Memory) (bs : List Byte) (k : Nat) (free : Byte) :
    ((m.store 0 bs).find? k).getD free = (bs[k]?).getD ((m.find? k).getD free) := by
  rw [Memory.find?_store]
  by_cases h : k < bs.length
  · simp [h]
  · simp [h]

theorem Memory.wf_iff {size : Nat} {m : Memory} :
    m.wf size = true ↔ m.Pairwise (fun a b => a.1 < b.1) ∧ ∀ c ∈ m, c.1 < size := by
  simp only [Memory.wf, Bool.and_eq_true, decide_eq_true_eq, List.all_eq_true]

@[simp] theorem Memory.wf_nil (size : Nat) : Memory.wf size [] = true := by
  simp [Memory.wf_iff]

theorem Memory.mem_write {m : Memory} {j : Nat} {b : Byte} {c : Host.Cell} (h : c ∈ m.write j b) :
    c = (j, b) ∨ c ∈ m := by
  induction m with
  | nil => simpa [Memory.write] using h
  | cons a m ih =>
    obtain ⟨i, a⟩ := a
    unfold Memory.write at h
    split at h
    · simpa using h
    · split at h
      · rcases List.mem_cons.1 h with h | h
        · exact .inl h
        · exact .inr (List.mem_cons_of_mem _ h)
      · rcases List.mem_cons.1 h with h | h
        · exact .inr (h ▸ List.mem_cons_self)
        · rcases ih h with h | h
          · exact .inl h
          · exact .inr (List.mem_cons_of_mem _ h)

/-- A write inside the space keeps the canonical form. -/
theorem Memory.wf_write {size : Nat} {m : Memory} {j : Nat} (b : Byte) (h : m.wf size = true) (hj : j < size) :
    (m.write j b).wf size = true := by
  rw [Memory.wf_iff] at h ⊢
  obtain ⟨hp, hs⟩ := h
  refine ⟨?_, fun c hc => ?_⟩
  · clear hs
    induction m with
    | nil => simp [Memory.write]
    | cons a m ih =>
      obtain ⟨i, a⟩ := a
      rw [List.pairwise_cons] at hp
      unfold Memory.write
      split
      · rename_i hlt
        refine List.pairwise_cons.2 ⟨fun c hc => ?_, List.pairwise_cons.2 hp⟩
        rcases List.mem_cons.1 hc with rfl | hc
        · exact hlt
        · exact Nat.lt_trans hlt (hp.1 c hc)
      · split
        · rename_i h1 h2
          subst h2
          exact List.pairwise_cons.2 hp
        · rename_i h1 h2
          refine List.pairwise_cons.2 ⟨fun c hc => ?_, ih hp.2⟩
          rcases Memory.mem_write hc with rfl | hc
          · simp; omega
          · exact hp.1 c hc
  · rcases Memory.mem_write hc with rfl | hc
    · exact hj
    · exact hs c hc

/-- A run of bytes stored inside the space keeps the canonical form. -/
theorem Memory.wf_store {size : Nat} (bs : List Byte) {m : Memory} {base : Nat} (h : m.wf size = true)
    (hb : base + bs.length ≤ size) : (m.store base bs).wf size = true := by
  induction bs generalizing m base with
  | nil => exact h
  | cons b bs ih =>
    simp only [List.length_cons] at hb
    exact ih (Memory.wf_write b h (by omega)) (by omega)

end Sys2Proof.Machine
end

