-- ==== Sys2Proof/Laws/State.lean ====
section
/-! SUPPORT. One lemma for each field and each update of the state, true by `rfl`, so that no proof unfolds a record update. -/

namespace Sys2Proof.Machine

/-! ### takeFault -/

@[simp] theorem State.takeFault_crc (s : State) (f : BlockFault) : (s.takeFault f).crc = s.crc := rfl
@[simp] theorem State.takeFault_tx (s : State) (f : BlockFault) : (s.takeFault f).tx = s.tx := rfl
@[simp] theorem State.takeFault_txlen (s : State) (f : BlockFault) : (s.takeFault f).txlen = s.txlen := rfl
@[simp] theorem State.takeFault_rx (s : State) (f : BlockFault) : (s.takeFault f).rx = s.rx := rfl
@[simp] theorem State.takeFault_len (s : State) (f : BlockFault) : (s.takeFault f).len = s.len := rfl
@[simp] theorem State.takeFault_wait (s : State) (f : BlockFault) : (s.takeFault f).wait = s.wait := rfl
@[simp] theorem State.takeFault_ngrp (s : State) (f : BlockFault) : (s.takeFault f).ngrp = s.ngrp := rfl
@[simp] theorem State.takeFault_d (s : State) (f : BlockFault) : (s.takeFault f).d = s.d := rfl
@[simp] theorem State.takeFault_ok (s : State) (f : BlockFault) : (s.takeFault f).ok = s.ok := rfl
@[simp] theorem State.takeFault_raw (s : State) (f : BlockFault) : (s.takeFault f).raw = s.raw := rfl
@[simp] theorem State.takeFault_rdata (s : State) (f : BlockFault) : (s.takeFault f).rdata = s.rdata := rfl
@[simp] theorem State.takeFault_err (s : State) (f : BlockFault) : (s.takeFault f).err = errOfFault f := rfl
@[simp] theorem State.takeFault_session (s : State) (f : BlockFault) : (s.takeFault f).session = s.session := rfl
@[simp] theorem State.takeFault_results (s : State) (f : BlockFault) : (s.takeFault f).results = s.results := rfl
@[simp] theorem State.takeFault_inbox (s : State) (f : BlockFault) : (s.takeFault f).inbox = s.inbox := rfl
@[simp] theorem State.takeFault_exchanges (s : State) (f : BlockFault) : (s.takeFault f).exchanges = s.exchanges := rfl
@[simp] theorem State.takeFault_draws (s : State) (f : BlockFault) : (s.takeFault f).draws = s.draws := rfl
@[simp] theorem State.takeFault_epoch (s : State) (f : BlockFault) : (s.takeFault f).epoch = s.epoch := rfl
@[simp] theorem State.takeFault_sentEpoch (s : State) (f : BlockFault) : (s.takeFault f).sentEpoch = s.sentEpoch := rfl
@[simp] theorem State.takeFault_trace (s : State) (f : BlockFault) : (s.takeFault f).trace = s.trace := rfl

/-! ### complete -/

@[simp] theorem State.complete_crc (s : State) : s.complete.crc = s.crc := rfl
@[simp] theorem State.complete_tx (s : State) : s.complete.tx = s.tx := rfl
@[simp] theorem State.complete_txlen (s : State) : s.complete.txlen = s.txlen := rfl
@[simp] theorem State.complete_rx (s : State) : s.complete.rx = s.rx := rfl
@[simp] theorem State.complete_len (s : State) : s.complete.len = s.len := rfl
@[simp] theorem State.complete_wait (s : State) : s.complete.wait = s.wait := rfl
@[simp] theorem State.complete_ngrp (s : State) : s.complete.ngrp = s.ngrp := rfl
@[simp] theorem State.complete_d (s : State) : s.complete.d = s.d := rfl
@[simp] theorem State.complete_ok (s : State) : s.complete.ok = s.ok := rfl
@[simp] theorem State.complete_raw (s : State) : s.complete.raw = s.raw := rfl
@[simp] theorem State.complete_rdata (s : State) : s.complete.rdata = s.rdata := rfl
@[simp] theorem State.complete_err (s : State) : s.complete.err = Err.clear := rfl
@[simp] theorem State.complete_session (s : State) : s.complete.session = s.session := rfl
@[simp] theorem State.complete_results (s : State) : s.complete.results = s.results := rfl
@[simp] theorem State.complete_inbox (s : State) : s.complete.inbox = s.inbox := rfl
@[simp] theorem State.complete_exchanges (s : State) : s.complete.exchanges = s.exchanges := rfl
@[simp] theorem State.complete_draws (s : State) : s.complete.draws = s.draws := rfl
@[simp] theorem State.complete_epoch (s : State) : s.complete.epoch = s.epoch := rfl
@[simp] theorem State.complete_sentEpoch (s : State) : s.complete.sentEpoch = s.sentEpoch := rfl
@[simp] theorem State.complete_trace (s : State) : s.complete.trace = s.trace := rfl

/-! ### returns -/

@[simp] theorem State.returns_crc (s : State) (r : HostResult) : (s.returns r).crc = s.crc := rfl
@[simp] theorem State.returns_tx (s : State) (r : HostResult) : (s.returns r).tx = s.tx := rfl
@[simp] theorem State.returns_txlen (s : State) (r : HostResult) : (s.returns r).txlen = s.txlen := rfl
@[simp] theorem State.returns_rx (s : State) (r : HostResult) : (s.returns r).rx = s.rx := rfl
@[simp] theorem State.returns_len (s : State) (r : HostResult) : (s.returns r).len = s.len := rfl
@[simp] theorem State.returns_wait (s : State) (r : HostResult) : (s.returns r).wait = s.wait := rfl
@[simp] theorem State.returns_ngrp (s : State) (r : HostResult) : (s.returns r).ngrp = s.ngrp := rfl
@[simp] theorem State.returns_d (s : State) (r : HostResult) : (s.returns r).d = s.d := rfl
@[simp] theorem State.returns_ok (s : State) (r : HostResult) : (s.returns r).ok = s.ok := rfl
@[simp] theorem State.returns_raw (s : State) (r : HostResult) : (s.returns r).raw = s.raw := rfl
@[simp] theorem State.returns_rdata (s : State) (r : HostResult) : (s.returns r).rdata = s.rdata := rfl
@[simp] theorem State.returns_err (s : State) (r : HostResult) : (s.returns r).err = s.err := rfl
@[simp] theorem State.returns_session (s : State) (r : HostResult) : (s.returns r).session = s.session := rfl
@[simp] theorem State.returns_results (s : State) (r : HostResult) : (s.returns r).results = s.results ++ [r] := rfl
@[simp] theorem State.returns_inbox (s : State) (r : HostResult) : (s.returns r).inbox = s.inbox := rfl
@[simp] theorem State.returns_exchanges (s : State) (r : HostResult) : (s.returns r).exchanges = s.exchanges := rfl
@[simp] theorem State.returns_draws (s : State) (r : HostResult) : (s.returns r).draws = s.draws := rfl
@[simp] theorem State.returns_epoch (s : State) (r : HostResult) : (s.returns r).epoch = s.epoch := rfl
@[simp] theorem State.returns_sentEpoch (s : State) (r : HostResult) : (s.returns r).sentEpoch = s.sentEpoch := rfl
@[simp] theorem State.returns_trace (s : State) (r : HostResult) : (s.returns r).trace = s.trace := rfl

/-! ### record -/

@[simp] theorem State.record_crc (s : State) (e : BusEvent) : (s.record e).crc = s.crc := rfl
@[simp] theorem State.record_tx (s : State) (e : BusEvent) : (s.record e).tx = s.tx := rfl
@[simp] theorem State.record_txlen (s : State) (e : BusEvent) : (s.record e).txlen = s.txlen := rfl
@[simp] theorem State.record_rx (s : State) (e : BusEvent) : (s.record e).rx = s.rx := rfl
@[simp] theorem State.record_len (s : State) (e : BusEvent) : (s.record e).len = s.len := rfl
@[simp] theorem State.record_wait (s : State) (e : BusEvent) : (s.record e).wait = s.wait := rfl
@[simp] theorem State.record_ngrp (s : State) (e : BusEvent) : (s.record e).ngrp = s.ngrp := rfl
@[simp] theorem State.record_d (s : State) (e : BusEvent) : (s.record e).d = s.d := rfl
@[simp] theorem State.record_ok (s : State) (e : BusEvent) : (s.record e).ok = s.ok := rfl
@[simp] theorem State.record_raw (s : State) (e : BusEvent) : (s.record e).raw = s.raw := rfl
@[simp] theorem State.record_rdata (s : State) (e : BusEvent) : (s.record e).rdata = s.rdata := rfl
@[simp] theorem State.record_err (s : State) (e : BusEvent) : (s.record e).err = s.err := rfl
@[simp] theorem State.record_session (s : State) (e : BusEvent) : (s.record e).session = s.session := rfl
@[simp] theorem State.record_results (s : State) (e : BusEvent) : (s.record e).results = s.results := rfl
@[simp] theorem State.record_inbox (s : State) (e : BusEvent) : (s.record e).inbox = s.inbox := rfl
@[simp] theorem State.record_exchanges (s : State) (e : BusEvent) : (s.record e).exchanges = s.exchanges := rfl
@[simp] theorem State.record_draws (s : State) (e : BusEvent) : (s.record e).draws = s.draws := rfl
@[simp] theorem State.record_epoch (s : State) (e : BusEvent) : (s.record e).epoch = s.epoch := rfl
@[simp] theorem State.record_sentEpoch (s : State) (e : BusEvent) : (s.record e).sentEpoch = s.sentEpoch := rfl
@[simp] theorem State.record_trace (s : State) (e : BusEvent) : (s.record e).trace = s.trace ++ [e] := rfl

/-! ### setSession -/

@[simp] theorem State.setSession_crc (s : State) (sess : Session) : (s.setSession sess).crc = s.crc := rfl
@[simp] theorem State.setSession_tx (s : State) (sess : Session) : (s.setSession sess).tx = s.tx := rfl
@[simp] theorem State.setSession_txlen (s : State) (sess : Session) : (s.setSession sess).txlen = s.txlen := rfl
@[simp] theorem State.setSession_rx (s : State) (sess : Session) : (s.setSession sess).rx = s.rx := rfl
@[simp] theorem State.setSession_len (s : State) (sess : Session) : (s.setSession sess).len = s.len := rfl
@[simp] theorem State.setSession_wait (s : State) (sess : Session) : (s.setSession sess).wait = s.wait := rfl
@[simp] theorem State.setSession_ngrp (s : State) (sess : Session) : (s.setSession sess).ngrp = s.ngrp := rfl
@[simp] theorem State.setSession_d (s : State) (sess : Session) : (s.setSession sess).d = s.d := rfl
@[simp] theorem State.setSession_ok (s : State) (sess : Session) : (s.setSession sess).ok = s.ok := rfl
@[simp] theorem State.setSession_raw (s : State) (sess : Session) : (s.setSession sess).raw = s.raw := rfl
@[simp] theorem State.setSession_rdata (s : State) (sess : Session) : (s.setSession sess).rdata = s.rdata := rfl
@[simp] theorem State.setSession_err (s : State) (sess : Session) : (s.setSession sess).err = s.err := rfl
@[simp] theorem State.setSession_session (s : State) (sess : Session) : (s.setSession sess).session = some sess := rfl
@[simp] theorem State.setSession_results (s : State) (sess : Session) : (s.setSession sess).results = s.results := rfl
@[simp] theorem State.setSession_inbox (s : State) (sess : Session) : (s.setSession sess).inbox = s.inbox := rfl
@[simp] theorem State.setSession_exchanges (s : State) (sess : Session) : (s.setSession sess).exchanges = s.exchanges := rfl
@[simp] theorem State.setSession_draws (s : State) (sess : Session) : (s.setSession sess).draws = s.draws := rfl
@[simp] theorem State.setSession_epoch (s : State) (sess : Session) : (s.setSession sess).epoch = s.epoch := rfl
@[simp] theorem State.setSession_sentEpoch (s : State) (sess : Session) : (s.setSession sess).sentEpoch = s.sentEpoch := rfl
@[simp] theorem State.setSession_trace (s : State) (sess : Session) : (s.setSession sess).trace = s.trace := rfl

/-! ### setMetadata -/

@[simp] theorem State.setMetadata_crc (s : State) (m : Metadata) : (s.setMetadata m).crc = s.crc := rfl
@[simp] theorem State.setMetadata_tx (s : State) (m : Metadata) : (s.setMetadata m).tx = s.tx := rfl
@[simp] theorem State.setMetadata_txlen (s : State) (m : Metadata) : (s.setMetadata m).txlen = s.txlen := rfl
@[simp] theorem State.setMetadata_rx (s : State) (m : Metadata) : (s.setMetadata m).rx = s.rx := rfl
@[simp] theorem State.setMetadata_len (s : State) (m : Metadata) : (s.setMetadata m).len = m.len := rfl
@[simp] theorem State.setMetadata_wait (s : State) (m : Metadata) : (s.setMetadata m).wait = m.wait := rfl
@[simp] theorem State.setMetadata_ngrp (s : State) (m : Metadata) : (s.setMetadata m).ngrp = s.ngrp := rfl
@[simp] theorem State.setMetadata_d (s : State) (m : Metadata) : (s.setMetadata m).d = s.d := rfl
@[simp] theorem State.setMetadata_ok (s : State) (m : Metadata) : (s.setMetadata m).ok = s.ok := rfl
@[simp] theorem State.setMetadata_raw (s : State) (m : Metadata) : (s.setMetadata m).raw = s.raw := rfl
@[simp] theorem State.setMetadata_rdata (s : State) (m : Metadata) : (s.setMetadata m).rdata = s.rdata := rfl
@[simp] theorem State.setMetadata_err (s : State) (m : Metadata) : (s.setMetadata m).err = s.err := rfl
@[simp] theorem State.setMetadata_session (s : State) (m : Metadata) : (s.setMetadata m).session = s.session := rfl
@[simp] theorem State.setMetadata_results (s : State) (m : Metadata) : (s.setMetadata m).results = s.results := rfl
@[simp] theorem State.setMetadata_inbox (s : State) (m : Metadata) : (s.setMetadata m).inbox = s.inbox := rfl
@[simp] theorem State.setMetadata_exchanges (s : State) (m : Metadata) : (s.setMetadata m).exchanges = s.exchanges := rfl
@[simp] theorem State.setMetadata_draws (s : State) (m : Metadata) : (s.setMetadata m).draws = s.draws := rfl
@[simp] theorem State.setMetadata_epoch (s : State) (m : Metadata) : (s.setMetadata m).epoch = s.epoch := rfl
@[simp] theorem State.setMetadata_sentEpoch (s : State) (m : Metadata) : (s.setMetadata m).sentEpoch = s.sentEpoch := rfl
@[simp] theorem State.setMetadata_trace (s : State) (m : Metadata) : (s.setMetadata m).trace = s.trace := rfl

/-! ### buildFrame -/

@[simp] theorem State.buildFrame_crc (s : State) (c : Word) (p : Option (Word × Word)) : (s.buildFrame c p).crc = s.crc := rfl
@[simp] theorem State.buildFrame_tx (s : State) (c : Word) (p : Option (Word × Word)) : (s.buildFrame c p).tx = s.tx.store 0 (frameBytes c p) := rfl
@[simp] theorem State.buildFrame_txlen (s : State) (c : Word) (p : Option (Word × Word)) : (s.buildFrame c p).txlen = BitVec.ofNat 4 (frameBytes c p).length := rfl
@[simp] theorem State.buildFrame_rx (s : State) (c : Word) (p : Option (Word × Word)) : (s.buildFrame c p).rx = s.rx := rfl
@[simp] theorem State.buildFrame_len (s : State) (c : Word) (p : Option (Word × Word)) : (s.buildFrame c p).len = s.len := rfl
@[simp] theorem State.buildFrame_wait (s : State) (c : Word) (p : Option (Word × Word)) : (s.buildFrame c p).wait = s.wait := rfl
@[simp] theorem State.buildFrame_ngrp (s : State) (c : Word) (p : Option (Word × Word)) : (s.buildFrame c p).ngrp = s.ngrp := rfl
@[simp] theorem State.buildFrame_d (s : State) (c : Word) (p : Option (Word × Word)) : (s.buildFrame c p).d = s.d := rfl
@[simp] theorem State.buildFrame_ok (s : State) (c : Word) (p : Option (Word × Word)) : (s.buildFrame c p).ok = s.ok := rfl
@[simp] theorem State.buildFrame_raw (s : State) (c : Word) (p : Option (Word × Word)) : (s.buildFrame c p).raw = s.raw := rfl
@[simp] theorem State.buildFrame_rdata (s : State) (c : Word) (p : Option (Word × Word)) : (s.buildFrame c p).rdata = s.rdata := rfl
@[simp] theorem State.buildFrame_err (s : State) (c : Word) (p : Option (Word × Word)) : (s.buildFrame c p).err = s.err := rfl
@[simp] theorem State.buildFrame_session (s : State) (c : Word) (p : Option (Word × Word)) : (s.buildFrame c p).session = s.session := rfl
@[simp] theorem State.buildFrame_results (s : State) (c : Word) (p : Option (Word × Word)) : (s.buildFrame c p).results = s.results := rfl
@[simp] theorem State.buildFrame_inbox (s : State) (c : Word) (p : Option (Word × Word)) : (s.buildFrame c p).inbox = s.inbox := rfl
@[simp] theorem State.buildFrame_exchanges (s : State) (c : Word) (p : Option (Word × Word)) : (s.buildFrame c p).exchanges = s.exchanges := rfl
@[simp] theorem State.buildFrame_draws (s : State) (c : Word) (p : Option (Word × Word)) : (s.buildFrame c p).draws = s.draws := rfl
@[simp] theorem State.buildFrame_epoch (s : State) (c : Word) (p : Option (Word × Word)) : (s.buildFrame c p).epoch = s.epoch := rfl
@[simp] theorem State.buildFrame_sentEpoch (s : State) (c : Word) (p : Option (Word × Word)) : (s.buildFrame c p).sentEpoch = s.sentEpoch := rfl
@[simp] theorem State.buildFrame_trace (s : State) (c : Word) (p : Option (Word × Word)) : (s.buildFrame c p).trace = s.trace := rfl

/-! ### setGroups -/

@[simp] theorem State.setGroups_crc (s : State) (gs : List (Word × Bool)) : (s.setGroups gs).crc = s.crc := rfl
@[simp] theorem State.setGroups_tx (s : State) (gs : List (Word × Bool)) : (s.setGroups gs).tx = s.tx := rfl
@[simp] theorem State.setGroups_txlen (s : State) (gs : List (Word × Bool)) : (s.setGroups gs).txlen = s.txlen := rfl
@[simp] theorem State.setGroups_rx (s : State) (gs : List (Word × Bool)) : (s.setGroups gs).rx = s.rx := rfl
@[simp] theorem State.setGroups_len (s : State) (gs : List (Word × Bool)) : (s.setGroups gs).len = s.len := rfl
@[simp] theorem State.setGroups_wait (s : State) (gs : List (Word × Bool)) : (s.setGroups gs).wait = s.wait := rfl
@[simp] theorem State.setGroups_ngrp (s : State) (gs : List (Word × Bool)) : (s.setGroups gs).ngrp = BitVec.ofNat 2 gs.length := rfl
@[simp] theorem State.setGroups_raw (s : State) (gs : List (Word × Bool)) : (s.setGroups gs).raw = s.raw := rfl
@[simp] theorem State.setGroups_rdata (s : State) (gs : List (Word × Bool)) : (s.setGroups gs).rdata = s.rdata := rfl
@[simp] theorem State.setGroups_err (s : State) (gs : List (Word × Bool)) : (s.setGroups gs).err = s.err := rfl
@[simp] theorem State.setGroups_session (s : State) (gs : List (Word × Bool)) : (s.setGroups gs).session = s.session := rfl
@[simp] theorem State.setGroups_results (s : State) (gs : List (Word × Bool)) : (s.setGroups gs).results = s.results := rfl
@[simp] theorem State.setGroups_inbox (s : State) (gs : List (Word × Bool)) : (s.setGroups gs).inbox = s.inbox := rfl
@[simp] theorem State.setGroups_exchanges (s : State) (gs : List (Word × Bool)) : (s.setGroups gs).exchanges = s.exchanges := rfl
@[simp] theorem State.setGroups_draws (s : State) (gs : List (Word × Bool)) : (s.setGroups gs).draws = s.draws := rfl
@[simp] theorem State.setGroups_epoch (s : State) (gs : List (Word × Bool)) : (s.setGroups gs).epoch = s.epoch := rfl
@[simp] theorem State.setGroups_sentEpoch (s : State) (gs : List (Word × Bool)) : (s.setGroups gs).sentEpoch = s.sentEpoch := rfl
@[simp] theorem State.setGroups_trace (s : State) (gs : List (Word × Bool)) : (s.setGroups gs).trace = s.trace := rfl

/-! ### fetchTx -/

@[simp] theorem State.fetchTx_crc (s : State) (i : Nat) : (s.fetchTx i).crc = s.crc := rfl
@[simp] theorem State.fetchTx_tx (s : State) (i : Nat) : (s.fetchTx i).tx = s.tx := rfl
@[simp] theorem State.fetchTx_txlen (s : State) (i : Nat) : (s.fetchTx i).txlen = s.txlen := rfl
@[simp] theorem State.fetchTx_rx (s : State) (i : Nat) : (s.fetchTx i).rx = s.rx := rfl
@[simp] theorem State.fetchTx_len (s : State) (i : Nat) : (s.fetchTx i).len = s.len := rfl
@[simp] theorem State.fetchTx_wait (s : State) (i : Nat) : (s.fetchTx i).wait = s.wait := rfl
@[simp] theorem State.fetchTx_ngrp (s : State) (i : Nat) : (s.fetchTx i).ngrp = s.ngrp := rfl
@[simp] theorem State.fetchTx_d (s : State) (i : Nat) : (s.fetchTx i).d = s.d := rfl
@[simp] theorem State.fetchTx_ok (s : State) (i : Nat) : (s.fetchTx i).ok = s.ok := rfl
@[simp] theorem State.fetchTx_raw (s : State) (i : Nat) : (s.fetchTx i).raw = s.raw := rfl
@[simp] theorem State.fetchTx_rdata (s : State) (i : Nat) : (s.fetchTx i).rdata = s.txByte i := rfl
@[simp] theorem State.fetchTx_err (s : State) (i : Nat) : (s.fetchTx i).err = s.err := rfl
@[simp] theorem State.fetchTx_session (s : State) (i : Nat) : (s.fetchTx i).session = s.session := rfl
@[simp] theorem State.fetchTx_results (s : State) (i : Nat) : (s.fetchTx i).results = s.results := rfl
@[simp] theorem State.fetchTx_inbox (s : State) (i : Nat) : (s.fetchTx i).inbox = s.inbox := rfl
@[simp] theorem State.fetchTx_exchanges (s : State) (i : Nat) : (s.fetchTx i).exchanges = s.exchanges := rfl
@[simp] theorem State.fetchTx_draws (s : State) (i : Nat) : (s.fetchTx i).draws = s.draws := rfl
@[simp] theorem State.fetchTx_epoch (s : State) (i : Nat) : (s.fetchTx i).epoch = s.epoch := rfl
@[simp] theorem State.fetchTx_sentEpoch (s : State) (i : Nat) : (s.fetchTx i).sentEpoch = s.sentEpoch := rfl
@[simp] theorem State.fetchTx_trace (s : State) (i : Nat) : (s.fetchTx i).trace = s.trace := rfl

/-! ### loadRx -/

@[simp] theorem State.loadRx_crc (s : State) (bs : List Byte) : (s.loadRx bs).crc = s.crc := rfl
@[simp] theorem State.loadRx_tx (s : State) (bs : List Byte) : (s.loadRx bs).tx = s.tx := rfl
@[simp] theorem State.loadRx_txlen (s : State) (bs : List Byte) : (s.loadRx bs).txlen = s.txlen := rfl
@[simp] theorem State.loadRx_rx (s : State) (bs : List Byte) : (s.loadRx bs).rx = s.rx.store 0 bs := rfl
@[simp] theorem State.loadRx_len (s : State) (bs : List Byte) : (s.loadRx bs).len = s.len := rfl
@[simp] theorem State.loadRx_wait (s : State) (bs : List Byte) : (s.loadRx bs).wait = s.wait := rfl
@[simp] theorem State.loadRx_ngrp (s : State) (bs : List Byte) : (s.loadRx bs).ngrp = s.ngrp := rfl
@[simp] theorem State.loadRx_d (s : State) (bs : List Byte) : (s.loadRx bs).d = s.d := rfl
@[simp] theorem State.loadRx_ok (s : State) (bs : List Byte) : (s.loadRx bs).ok = s.ok := rfl
@[simp] theorem State.loadRx_raw (s : State) (bs : List Byte) : (s.loadRx bs).raw = s.raw := rfl
@[simp] theorem State.loadRx_rdata (s : State) (bs : List Byte) : (s.loadRx bs).rdata = s.rdata := rfl
@[simp] theorem State.loadRx_err (s : State) (bs : List Byte) : (s.loadRx bs).err = Err.clear := rfl
@[simp] theorem State.loadRx_session (s : State) (bs : List Byte) : (s.loadRx bs).session = s.session := rfl
@[simp] theorem State.loadRx_results (s : State) (bs : List Byte) : (s.loadRx bs).results = s.results := rfl
@[simp] theorem State.loadRx_inbox (s : State) (bs : List Byte) : (s.loadRx bs).inbox = s.inbox := rfl
@[simp] theorem State.loadRx_exchanges (s : State) (bs : List Byte) : (s.loadRx bs).exchanges = s.exchanges := rfl
@[simp] theorem State.loadRx_draws (s : State) (bs : List Byte) : (s.loadRx bs).draws = s.draws := rfl
@[simp] theorem State.loadRx_epoch (s : State) (bs : List Byte) : (s.loadRx bs).epoch = s.epoch := rfl
@[simp] theorem State.loadRx_sentEpoch (s : State) (bs : List Byte) : (s.loadRx bs).sentEpoch = s.sentEpoch := rfl
@[simp] theorem State.loadRx_trace (s : State) (bs : List Byte) : (s.loadRx bs).trace = s.trace := rfl

/-! ### issue -/

@[simp] theorem State.issue_crc (s : State) (sess : Session) (code : Word) (st : SessionState) :
    (s.issue sess code st).crc = s.crc := rfl
@[simp] theorem State.issue_tx (s : State) (sess : Session) (code : Word) (st : SessionState) :
    (s.issue sess code st).tx = s.tx := rfl
@[simp] theorem State.issue_txlen (s : State) (sess : Session) (code : Word) (st : SessionState) :
    (s.issue sess code st).txlen = s.txlen := rfl
@[simp] theorem State.issue_rx (s : State) (sess : Session) (code : Word) (st : SessionState) :
    (s.issue sess code st).rx = s.rx := rfl
@[simp] theorem State.issue_len (s : State) (sess : Session) (code : Word) (st : SessionState) :
    (s.issue sess code st).len = s.len := rfl
@[simp] theorem State.issue_wait (s : State) (sess : Session) (code : Word) (st : SessionState) :
    (s.issue sess code st).wait = s.wait := rfl
@[simp] theorem State.issue_ngrp (s : State) (sess : Session) (code : Word) (st : SessionState) :
    (s.issue sess code st).ngrp = s.ngrp := rfl
@[simp] theorem State.issue_d (s : State) (sess : Session) (code : Word) (st : SessionState) :
    (s.issue sess code st).d = s.d := rfl
@[simp] theorem State.issue_ok (s : State) (sess : Session) (code : Word) (st : SessionState) :
    (s.issue sess code st).ok = s.ok := rfl
@[simp] theorem State.issue_raw (s : State) (sess : Session) (code : Word) (st : SessionState) :
    (s.issue sess code st).raw = s.raw := rfl
@[simp] theorem State.issue_rdata (s : State) (sess : Session) (code : Word) (st : SessionState) :
    (s.issue sess code st).rdata = s.rdata := rfl
@[simp] theorem State.issue_err (s : State) (sess : Session) (code : Word) (st : SessionState) :
    (s.issue sess code st).err = s.err := rfl
@[simp] theorem State.issue_session (s : State) (sess : Session) (code : Word) (st : SessionState) :
    (s.issue sess code st).session = some { sess with lastCmd := some code, sstate := st } := rfl
@[simp] theorem State.issue_results (s : State) (sess : Session) (code : Word) (st : SessionState) :
    (s.issue sess code st).results = s.results := rfl
@[simp] theorem State.issue_inbox (s : State) (sess : Session) (code : Word) (st : SessionState) :
    (s.issue sess code st).inbox = s.inbox := rfl
@[simp] theorem State.issue_exchanges (s : State) (sess : Session) (code : Word) (st : SessionState) :
    (s.issue sess code st).exchanges = s.exchanges := rfl
@[simp] theorem State.issue_draws (s : State) (sess : Session) (code : Word) (st : SessionState) :
    (s.issue sess code st).draws = s.draws := rfl
@[simp] theorem State.issue_epoch (s : State) (sess : Session) (code : Word) (st : SessionState) :
    (s.issue sess code st).epoch = s.epoch := rfl
@[simp] theorem State.issue_sentEpoch (s : State) (sess : Session) (code : Word) (st : SessionState) :
    (s.issue sess code st).sentEpoch = s.epoch := rfl
@[simp] theorem State.issue_trace (s : State) (sess : Session) (code : Word) (st : SessionState) :
    (s.issue sess code st).trace = s.trace := rfl

end Sys2Proof.Machine
end

