-- ==== Sys2Proof/Laws/Ops.lean ====
section
/-! SUPPORT. What each shared operation can do, once. -/

namespace Sys2Proof.Machine

@[simp] theorem State.answer_ok (s t : State) : s.answer (.ok t) = t.complete := rfl
@[simp] theorem State.answer_error (s : State) (f : BlockFault) : s.answer (.error f) = s.takeFault f := rfl

/-- A request either completes with `ERR` clear, or leaves everything but `ERR` (R31, R171). -/
theorem State.answer_cases (s : State) (r : Except BlockFault State) :
    (∃ t, r = .ok t ∧ s.answer r = t.complete) ∨ (∃ f, r = .error f ∧ s.answer r = s.takeFault f) := by
  cases r with
  | ok t => exact .inl ⟨t, rfl, rfl⟩
  | error f => exact .inr ⟨f, rfl, rfl⟩

/-- Where a session operation can run, it answers the state its body gives. -/
theorem State.withSession_next {s : State} {sess : Session} (b : Bool) (f : Session → State)
    (h : s.session = some sess) (hs : b = true ∨ s.midCommand sess = false) :
    s.withSession b f = .next (f sess) := by
  unfold State.withSession
  rw [h]
  rcases hs with hs | hs <;> simp [hs]

/-- A session is in the middle of a command where it awaits a response and there was no reset since the send. -/
theorem State.midCommand_iff {s : State} {sess : Session} :
    s.midCommand sess = true ↔ sess.sstate = .awaitingResponse ∧ s.sentEpoch = s.epoch := by
  simp [State.midCommand]

/-- A session that awaits nothing is not in the middle of a command. -/
theorem State.midCommand_of_ne {s : State} {sess : Session} (h : sess.sstate ≠ .awaitingResponse) :
    s.midCommand sess = false := by
  simp [State.midCommand, h]

/-- A session operation answers a next state only from an existing session. -/
theorem State.withSession_cases {s t : State} {b : Bool} {f : Session → State} (h : s.withSession b f = .next t) :
    ∃ sess, s.session = some sess ∧ t = f sess ∧ (b = true ∨ s.midCommand sess = false) := by
  unfold State.withSession at h
  rcases hs : s.session with _ | sess
  · simp [hs] at h
  · refine ⟨sess, rfl, ?_⟩
    rw [hs] at h
    cases b <;> rcases hm : s.midCommand sess <;> simp_all

/-- The exchange an operation pops is the next one, and the rest of the state stays. -/
theorem State.popExchange_eq (s : State) :
    s.popExchange = { s with exchanges := s.popExchange.exchanges, draws := s.popExchange.draws } := by
  unfold State.popExchange
  split <;> rfl

/-- A read that succeeds answers its bytes (R150). -/
theorem readAnswer_ok {x : Exchange} (len : BitVec 4) (h : x.readOk = true) :
    readAnswer x len = some (x.bytes.toList.take len.toNat) := by simp [readAnswer, h]

/-- A read that fails answers none (R150). -/
theorem readAnswer_fails {x : Exchange} (len : BitVec 4) (h : x.readOk = false) : readAnswer x len = none := by
  simp [readAnswer, h]

@[simp] theorem errOfFault_cause (f : BlockFault) : (errOfFault f).cause = causeCode f := by
  cases f <;> rfl

@[simp] theorem Err.clear_cause : Err.clear.cause = 0 := rfl

theorem causeCode_ne_zero (f : BlockFault) : causeCode f ≠ 0 := by
  cases f <;> simp [causeCode]

/-- What the state reads from `TX` after a frame was built. -/
theorem State.buildFrame_txByte (s : State) (c : Word) (p : Option (Word × Word)) (i : Nat) :
    (s.buildFrame c p).txByte i = ((frameBytes c p)[i]?).getD (s.txByte i) := by
  simp only [State.txByte, State.buildFrame_tx, State.buildFrame_epoch]
  exact Memory.getD_find?_store _ _ _ _

/-- What the state reads from `RX` after bytes were loaded. -/
theorem State.loadRx_rxByte (s : State) (bs : List Byte) (i : Nat) :
    (s.loadRx bs).rxByte i = (bs[i]?).getD (s.rxByte i) := by
  simp only [State.rxByte, State.loadRx_rx, State.loadRx_epoch]
  exact Memory.getD_find?_store _ _ _ _

theorem frameBytes_length (c : Word) (p : Option (Word × Word)) :
    (frameBytes c p).length = if p.isSome then 8 else 2 := by
  rcases p with _ | ⟨r, t⟩ <;> rfl

end Sys2Proof.Machine
end

