-- ==== Sys2Proof/Laws/PerInstr.lean ====
section
/-! SUPPORT. A statement made instruction by instruction: the width in which an instruction is presented is that of its row
in `spec/opcode_table.json` (R61, R62, R68). -/

namespace Sys2Proof.Laws.Width

open Sys2Proof.Machine

/-- The width of an instruction's row: 56 bits for a request, 16 for a bare frame, 64 for a parameter frame. -/
def rowWidth : Instr → Nat
  | .crcinit => 56
  | .crcupd _ => 56
  | .resolve _ _ => 56
  | .build _ _ _ _ _ => 56
  | .parse _ _ => 56
  | .rawrh _ => 56
  | .rawt _ => 56
  | .rxwr _ _ => 56
  | .txrd _ => 56
  | .getSerialNumber => 16
  | .executeSelfTest => 16
  | .executeConditioning _ _ => 64
  | .measureRawSignal _ _ => 64
  | .turnHeaterOff => 16

/-- The encoder presents an instruction in the width of its row. -/
def Statement (i : Instr) : Prop := widthOf (encode i) = rowWidth i

theorem crcinit : Statement .crcinit := rfl
theorem crcupd (byte : Byte) : Statement (.crcupd byte) := rfl
theorem resolve (code : Word) (var : Variant) : Statement (.resolve code var) := rfl
theorem build (code : Word) (rhp tp : Bool) (rhraw traw : Word) : Statement (.build code rhp tp rhraw traw) := rfl
theorem parse (elen : BitVec 4) (ver : Bool) : Statement (.parse elen ver) := rfl
theorem rawrh (val : Word) : Statement (.rawrh val) := rfl
theorem rawt (val : Word) : Statement (.rawt val) := rfl
theorem rxwr (idx : BitVec 4) (byte : Byte) : Statement (.rxwr idx byte) := rfl
theorem txrd (idx : BitVec 4) : Statement (.txrd idx) := rfl
theorem getSerialNumber : Statement .getSerialNumber := rfl
theorem executeSelfTest : Statement .executeSelfTest := rfl
theorem executeConditioning (rhraw traw : Word) : Statement (.executeConditioning rhraw traw) := rfl
theorem measureRawSignal (rhraw traw : Word) : Statement (.measureRawSignal rhraw traw) := rfl
theorem turnHeaterOff : Statement .turnHeaterOff := rfl

end Sys2Proof.Laws.Width
end

