-- ==== Sys2Proof/Laws/WireCommands.lean ====
section
/-! SUPPORT. What a wire command does: the state it sends from, and the five ways it can end (R151, R152). -/

namespace Sys2Proof.Machine

/-- Reading `TX` out byte by byte leaves its last byte in `RDATA` and `ERR` clear. -/
theorem State.dumpTx_succ (s : State) (n : Nat) :
    s.dumpTx (n + 1) = { s with rdata := s.txByte n, err := Err.clear } := by
  have key : ∀ k, s.dumpTx k = if k = 0 then s else { s with rdata := s.txByte (k - 1), err := Err.clear } := by
    intro k
    induction k with
    | zero => rfl
    | succ k ih =>
      have hstep : s.dumpTx (k + 1) = ((s.dumpTx k).fetchTx k).complete := by
        simp [State.dumpTx, List.range_succ]
      rw [hstep, ih]
      by_cases hk : k = 0
      · subst hk; rfl
      · simp only [hk, if_false]; rfl
  rw [key]; rfl

/-- The state a command sends its frame from. -/
theorem State.prepare_eq (s : State) (c : Word) (p : Option (Word × Word)) (m : Metadata) :
    s.prepare c p m = { s with
      len := m.len, wait := m.wait, tx := s.tx.store 0 (frameBytes c p)
      txlen := BitVec.ofNat 4 (frameBytes c p).length
      rdata := ((frameBytes c p).getLast?).getD 0, err := Err.clear } := by
  unfold State.prepare
  have hlen : ((((s.setMetadata m).complete.buildFrame c p).complete.txlen).toNat) = (frameBytes c p).length := by
    rcases p with _ | ⟨r, t⟩ <;> rfl
  obtain ⟨k, hk⟩ : ∃ k, (frameBytes c p).length = k + 1 := by
    rcases p with _ | ⟨r, t⟩ <;> exact ⟨_, rfl⟩
  simp only [hlen, hk, State.dumpTx_succ]
  have hlast : ((s.setMetadata m).complete.buildFrame c p).complete.txByte k = ((frameBytes c p).getLast?).getD 0 := by
    have h1 : ((s.setMetadata m).complete.buildFrame c p).complete.txByte k =
        ((s.setMetadata m).complete.buildFrame c p).txByte k := rfl
    rw [h1, State.buildFrame_txByte, List.getLast?_eq_getElem?, hk]
    have h2 : k < (frameBytes c p).length := by omega
    simp [h2]
  rw [hlast]
  simp [State.complete, State.buildFrame, State.setMetadata, hk]

/-- The frame a command sends is the frame it built, byte for byte (R24, R61, R62). -/
theorem State.prepare_txFrame (s : State) (c : Word) (p : Option (Word × Word)) (m : Metadata) :
    (s.prepare c p m).txFrame = frameBytes c p := by
  have htx : ∀ i, (s.prepare c p m).txByte i = ((frameBytes c p)[i]?).getD (s.txByte i) := by
    intro i
    rw [State.prepare_eq]
    exact Memory.getD_find?_store _ _ _ _
  have hlen : (s.prepare c p m).txlen.toNat = (frameBytes c p).length := by
    rw [State.prepare_eq]
    rcases p with _ | ⟨r, t⟩ <;> rfl
  unfold State.txFrame
  rw [hlen]
  apply List.ext_getElem?
  intro i
  by_cases hi : i < (frameBytes c p).length
  · simp [hi, htx]
  · have hle := Nat.le_of_not_lt hi
    rw [List.getElem?_eq_none hle, List.getElem?_eq_none (by simpa using hle)]

@[simp] theorem State.prepare_session (s : State) (c : Word) (p : Option (Word × Word)) (m : Metadata) :
    (s.prepare c p m).session = s.session := by rw [State.prepare_eq]

@[simp] theorem State.prepare_trace (s : State) (c : Word) (p : Option (Word × Word)) (m : Metadata) :
    (s.prepare c p m).trace = s.trace := by rw [State.prepare_eq]

@[simp] theorem State.prepare_nextExchange (s : State) (c : Word) (p : Option (Word × Word)) (m : Metadata) :
    (s.prepare c p m).nextExchange = s.nextExchange := by rw [State.prepare_eq]; rfl

/-- The state after the write, the wait and the session's change (R151 steps 4 and 5). -/
def State.sent (s : State) (c : Word) (p : Option (Word × Word)) (m : Metadata) (sess : Session) : State :=
  (((s.prepare c p m).popExchange.record (.write sess.addr (frameBytes c p) true)).issue sess c (endState c)).record
    (.wait m.wait)

/-- Every way a command can end: the lookup fault, the failing write, the response of length 0, the failing read, and the
response parsed (R151, R152). -/
theorem State.command_cases (s : State) (c : Word) (p : Option (Word × Word)) (sess : Session) :
    (∃ f, metadata c sess.variant = .error f ∧ s.command c p sess = (s.takeFault f).returns (.failed (.block f))) ∨
    (∃ m, metadata c sess.variant = .ok m ∧
      ((s.nextExchange.writeOk = false ∧ s.command c p sess =
        ((s.prepare c p m).popExchange.record (.write sess.addr (frameBytes c p) false)).returns (.failed .busError)) ∨
       (s.nextExchange.writeOk = true ∧ m.len = 0 ∧
        s.command c p sess = (s.sent c p m sess).parseAndReturn (some c) sess m.len) ∨
       (s.nextExchange.writeOk = true ∧ m.len ≠ 0 ∧ s.nextExchange.readOk = false ∧ s.command c p sess =
        ((s.sent c p m sess).record (.read sess.addr m.len none)).returns (.failed .busError)) ∨
       (s.nextExchange.writeOk = true ∧ m.len ≠ 0 ∧ s.nextExchange.readOk = true ∧ s.command c p sess =
        ((((s.sent c p m sess).record (.read sess.addr m.len (some (s.nextExchange.bytes.toList.take m.len.toNat)))).loadRx
          (s.nextExchange.bytes.toList.take m.len.toNat))).parseAndReturn (some c) sess m.len))) := by
  rcases hm : metadata c sess.variant with f | m
  · exact .inl ⟨f, rfl, by simp [State.command, hm]⟩
  · refine .inr ⟨m, rfl, ?_⟩
    have hcmd : s.command c p sess = (s.prepare c p m).transmit c m sess := by simp [State.command, hm]
    rcases hw : s.nextExchange.writeOk
    · exact .inl ⟨rfl, by simp [hcmd, State.transmit, hw, State.prepare_txFrame]⟩
    · refine .inr ?_
      have htr : s.command c p sess =
          (s.sent c p m sess).receive c sess m.len s.nextExchange := by
        simp [hcmd, State.transmit, hw, State.prepare_txFrame, State.sent]
      by_cases h0 : m.len = 0
      · exact .inl ⟨rfl, h0, by simp [htr, State.receive, h0]⟩
      · refine .inr ?_
        rcases hr : s.nextExchange.readOk
        · exact .inl ⟨rfl, h0, rfl, by rw [htr, State.receive, if_neg h0]; simp [readAnswer_fails _ hr]⟩
        · exact .inr ⟨rfl, h0, rfl, by rw [htr, State.receive, if_neg h0]; simp [readAnswer_ok _ hr]⟩

/-- A decoded response has as many groups as were asked for (R113). -/
theorem decodeGroups_length {rx : Nat → Byte} {v : Bool} {i n : Nat} {gs : List (Word × Bool)}
    (h : decodeGroups rx v i n = .ok gs) : gs.length = n := by
  induction n generalizing i gs with
  | zero => cases h; rfl
  | succ n ih =>
    simp only [decodeGroups] at h
    split at h
    · cases h
    · rcases hr : decodeGroups rx v (i + 1) n with f | gs'
      · simp [hr, Except.map] at h
      · simp only [hr, Except.map, Except.ok.injEq] at h
        subst h
        simp [ih hr]

/-- A parsed response has a third as many groups as bytes, at most three (R113). -/
theorem parseResponse_length {rx : Nat → Byte} {len : BitVec 4} {v : Bool} {gs : List (Word × Bool)}
    (h : parseResponse rx len v = .ok gs) : gs.length = len.toNat / 3 ∧ gs.length ≤ 3 := by
  unfold parseResponse at h
  split at h
  · rename_i hl
    have hg := decodeGroups_length h
    have hlen : ∀ l : BitVec 4, legalLength l = true → l.toNat / 3 ≤ 3 := by decide
    exact ⟨hg, hg ▸ hlen len hl⟩
  · cases h

/-- The words a successful `PARSE` delivers are those of its groups (R27, R113). -/
theorem State.setGroups_words (s : State) {gs : List (Word × Bool)} (h : gs.length ≤ 3) :
    (s.setGroups gs).words = gs.map Prod.fst := by
  match gs, h with
  | [], _ => rfl
  | [_], _ => rfl
  | [_, _], _ => rfl
  | [_, _, _], _ => rfl

/-- `PARSE` and the return (R151 steps 7 and 8): the groups are stored and their view returned, or the fault is taken. -/
theorem State.parseAndReturn_cases (s : State) (c : Option Word) (sess : Session) (len : BitVec 4) :
    (∃ gs, parseResponse s.rxByte len sess.verify = .ok gs ∧ s.parseAndReturn c sess len =
      (s.setGroups gs).complete.returns (viewOf c sess.variant (gs.map Prod.fst))) ∨
    (∃ f, parseResponse s.rxByte len sess.verify = .error f ∧
      s.parseAndReturn c sess len = (s.takeFault f).returns (.failed (.block f))) := by
  rcases h : parseResponse s.rxByte len sess.verify with f | gs
  · exact .inr ⟨f, rfl, by simp [State.parseAndReturn, State.parseFrame, h, Except.map]⟩
  · refine .inl ⟨gs, rfl, ?_⟩
    have hw : (s.setGroups gs).complete.words = gs.map Prod.fst := s.setGroups_words (parseResponse_length h).2
    simp [State.parseAndReturn, State.parseFrame, h, Except.map, hw]

/-- The two ways a write to the bus can end (R150, R151 step 4, R152). -/
theorem State.writeBytes_cases (s : State) (bytes : List Byte) (sess : Session) :
    (s.nextExchange.writeOk = false ∧ s.writeBytes bytes sess =
      (s.popExchange.record (.write sess.addr bytes false)).returns (.failed .busError)) ∨
    (s.nextExchange.writeOk = true ∧ frameCode bytes = none ∧
      s.writeBytes bytes sess = s.popExchange.record (.write sess.addr bytes true)) ∨
    (∃ c, s.nextExchange.writeOk = true ∧ frameCode bytes = some c ∧ s.writeBytes bytes sess =
      (s.popExchange.record (.write sess.addr bytes true)).issue sess c .awaitingResponse) := by
  rcases hw : s.nextExchange.writeOk
  · exact .inl ⟨rfl, by simp [State.writeBytes, hw]⟩
  · rcases hc : frameCode bytes with _ | c
    · exact .inr (.inl ⟨rfl, rfl, by simp [State.writeBytes, hw, hc]⟩)
    · exact .inr (.inr ⟨c, rfl, rfl, by simp [State.writeBytes, hw, hc]⟩)

/-- The three ways a read from the bus can end (R150, R151 step 6, R152). -/
theorem State.readResponse_cases (s : State) (sess : Session) :
    (s.len = 0 ∧ s.readResponse sess = s) ∨
    (s.len ≠ 0 ∧ s.nextExchange.readOk = true ∧ s.readResponse sess =
      (s.popExchange.record (.read sess.addr s.len (some (s.nextExchange.bytes.toList.take s.len.toNat)))).loadRx
        (s.nextExchange.bytes.toList.take s.len.toNat)) ∨
    (s.len ≠ 0 ∧ s.nextExchange.readOk = false ∧ s.readResponse sess =
      ((s.popExchange.record (.read sess.addr s.len none)).setSession sess.settled).returns (.failed .busError)) := by
  by_cases h0 : s.len = 0
  · exact .inl ⟨h0, by rw [State.readResponse, if_pos h0]⟩
  · rcases hr : s.nextExchange.readOk
    · exact .inr (.inr ⟨h0, rfl, by rw [State.readResponse, if_neg h0]; simp [readAnswer_fails _ hr]⟩)
    · exact .inr (.inl ⟨h0, rfl, by rw [State.readResponse, if_neg h0]; simp [readAnswer_ok _ hr]⟩)

/-- A session is settled into the state of its last command, or stays as it is (R142, R152). -/
theorem Session.settled_cases (sess : Session) :
    (sess.sstate ≠ .awaitingResponse ∧ sess.settled = sess) ∨
    (sess.sstate = .awaitingResponse ∧ sess.lastCmd = none ∧ sess.settled = { sess with sstate := .idle }) ∨
    (∃ c, sess.sstate = .awaitingResponse ∧ sess.lastCmd = some c ∧
      sess.settled = { sess with sstate := endState c }) := by
  rcases hs : sess.sstate
  · exact .inl ⟨by simp, by simp [Session.settled, hs]⟩
  · rcases hc : sess.lastCmd with _ | c
    · exact .inr (.inl ⟨rfl, rfl, by simp [Session.settled, hs, hc]⟩)
    · exact .inr (.inr ⟨c, rfl, rfl, by simp [Session.settled, hs, hc]⟩)
  · exact .inl ⟨by simp, by simp [Session.settled, hs]⟩

@[simp] theorem Session.settled_addr (sess : Session) : sess.settled.addr = sess.addr := by
  rcases sess.settled_cases with ⟨-, h⟩ | ⟨-, -, h⟩ | ⟨c, -, -, h⟩ <;> rw [h]

@[simp] theorem Session.settled_lastCmd (sess : Session) : sess.settled.lastCmd = sess.lastCmd := by
  rcases sess.settled_cases with ⟨-, h⟩ | ⟨-, -, h⟩ | ⟨c, -, -, h⟩ <;> rw [h]

/-- The ways "decode" can end: the `PARSE` of an empty response skipped, the response parsed, the fault taken (R124, R151
step 7, R210). -/
theorem State.decodeResponse_cases (s : State) (skip : Bool) (sess : Session) :
    (skip = true ∧ s.len = 0 ∧ s.decodeResponse skip sess =
      (s.setSession sess.settled).returns (viewOf sess.lastCmd sess.variant [])) ∨
    (¬(skip = true ∧ s.len = 0) ∧
      ((∃ gs, parseResponse s.rxByte s.len sess.verify = .ok gs ∧ s.decodeResponse skip sess =
        ((s.setSession sess.settled).setGroups gs).complete.returns
          (viewOf sess.lastCmd sess.variant (gs.map Prod.fst))) ∨
       (∃ f, parseResponse s.rxByte s.len sess.verify = .error f ∧ s.decodeResponse skip sess =
        ((s.setSession sess.settled).takeFault f).returns (.failed (.block f))))) := by
  by_cases h : skip = true ∧ s.len = 0
  · exact .inl ⟨h.1, h.2, by simp [State.decodeResponse, h.1, h.2]⟩
  · refine .inr ⟨h, ?_⟩
    have hd : s.decodeResponse skip sess = (s.setSession sess.settled).parseAndReturn sess.lastCmd sess s.len := by
      have hb : ¬(skip && s.len == 0) = true := by simpa using h
      rw [State.decodeResponse, if_neg hb]
    rw [hd]
    exact (s.setSession sess.settled).parseAndReturn_cases sess.lastCmd sess s.len

end Sys2Proof.Machine
end

