-- ==== Sys2Proof/Laws/Step.lean ====
section
/-! SUPPORT. What a step can do. -/

namespace Sys2Proof.Machine

/-- A step performs the first move of the inbox. -/
theorem step_cons {s : State} {m : Move} {rest : List Move} (h : s.inbox = m :: rest) :
    step s = perform m { s with inbox := rest } := by
  unfold step State.takeMove
  rw [h]

/-- Without a move the state stays (R212). -/
theorem step_nil {s : State} (h : s.inbox = []) : step s = .next s := by
  unfold step State.takeMove
  rw [h]

/-- What a step that answers a next state has done: nothing, or one move. -/
theorem step_cases {s t : State} (h : step s = .next t) :
    (s.inbox = [] ∧ t = s) ∨ ∃ m rest, s.inbox = m :: rest ∧ perform m { s with inbox := rest } = .next t := by
  rcases hi : s.inbox with _ | ⟨m, rest⟩
  · rw [step_nil hi] at h
    exact .inl ⟨rfl, by injection h with h; exact h.symm⟩
  · rw [step_cons hi] at h
    exact .inr ⟨m, rest, rfl, h⟩

/-- A move that answers a next state is a decoded instruction, a reserved request, a frame with an unknown code or in the other
format, bytes that are no command frame, a session operation, a construction, a reset, or one interaction of a command. -/
theorem perform_cases {m : Move} {s t : State} (h : perform m s = .next t) :
    (∃ p i, m = .present p ∧ decode p = .ok i ∧ exec i s = .next t) ∨
    (∃ p op, m = .present p ∧ decode p = .error (.reservedOp op) ∧ t = s.takeFault .illegalRequest) ∨
    (∃ p code, m = .present p ∧ decode p = .error (.unknownCode code) ∧
      s.withSession false (s.command code none) = .next t) ∨
    (∃ op, m = .operate op ∧ runOperation op s = .next t) ∨
    (∃ a v f, m = .construct a v f ∧ t = s.construct a v f) ∨
    (m = .reset ∧ t = s.resetBlock) ∨
    (∃ p cmd params, m = .present p ∧ decode p = .error (.wrongShape cmd params) ∧
      s.withSession (cmd == .turnHeaterOff) (s.command (codeOfCommand cmd) params) = .next t) ∨
    (∃ p bytes, m = .present p ∧ (decode p = .error (.badChecksum bytes) ∨ decode p = .error (.badLength bytes)) ∧
      s.sendBytes bytes = .next t) ∨
    (m = .send ∧ s.sendFrame = .next t) ∨
    (∃ ms, m = .wait ms ∧ t = s.record (.wait ms)) ∨
    (m = .receive ∧ s.withSession true s.readResponse = .next t) ∨
    (∃ skip, m = .decode skip ∧ s.withSession true (s.decodeResponse skip) = .next t) := by
  cases m with
  | present p =>
    simp only [perform, present] at h
    split at h
    · rename_i i hd
      exact .inl ⟨p, i, rfl, hd, h⟩
    · rename_i op hd
      exact .inr (.inl ⟨p, op, rfl, hd, by injection h with h; exact h.symm⟩)
    · rename_i code hd
      exact .inr (.inr (.inl ⟨p, code, rfl, hd, h⟩))
    · rename_i cmd params hd
      exact .inr (.inr (.inr (.inr (.inr (.inr (.inl ⟨p, cmd, params, rfl, hd, h⟩))))))
    · rename_i bytes hd
      exact .inr (.inr (.inr (.inr (.inr (.inr (.inr (.inl ⟨p, bytes, rfl, .inl hd, h⟩)))))))
    · rename_i bytes hd
      exact .inr (.inr (.inr (.inr (.inr (.inr (.inr (.inl ⟨p, bytes, rfl, .inr hd, h⟩)))))))
  | operate op => exact .inr (.inr (.inr (.inl ⟨op, rfl, h⟩)))
  | construct a v f =>
    exact .inr (.inr (.inr (.inr (.inl ⟨a, v, f, rfl, by
      simp only [perform] at h; injection h with h; exact h.symm⟩))))
  | reset =>
    exact .inr (.inr (.inr (.inr (.inr (.inl ⟨rfl, by simp only [perform] at h; injection h with h; exact h.symm⟩)))))
  | send => exact .inr (.inr (.inr (.inr (.inr (.inr (.inr (.inr (.inl ⟨rfl, h⟩))))))))
  | wait ms =>
    exact .inr (.inr (.inr (.inr (.inr (.inr (.inr (.inr (.inr (.inl ⟨ms, rfl, by
      simp only [perform] at h; injection h with h; exact h.symm⟩)))))))))
  | receive => exact .inr (.inr (.inr (.inr (.inr (.inr (.inr (.inr (.inr (.inr (.inl ⟨rfl, h⟩))))))))))
  | decode skip => exact .inr (.inr (.inr (.inr (.inr (.inr (.inr (.inr (.inr (.inr (.inr ⟨skip, rfl, h⟩))))))))))

/-- The three ways step 1 of the common sequence can go (R151): the humidity is out of range, the temperature is, or both
raw values are at hand, the second one in `RAW`. -/
theorem State.withTransforms_cases (s : State) (rh t : Word) (rest : State → Word → Word → State) :
    (rawHumidity (sint16 rh) = none ∧
      s.withTransforms rh t rest = (s.takeFault .outOfRange).returns (.failed (.block .outOfRange))) ∨
    (∃ r, rawHumidity (sint16 rh) = some r ∧ rawTemperature (sint16 t) = none ∧ s.withTransforms rh t rest =
      ({ s with raw := r }.takeFault .outOfRange).returns (.failed (.block .outOfRange))) ∨
    (∃ r q, rawHumidity (sint16 rh) = some r ∧ rawTemperature (sint16 t) = some q ∧
      s.withTransforms rh t rest = rest { s with raw := q }.complete r q) := by
  rcases h1 : rawHumidity (sint16 rh) with _ | r
  · exact .inl ⟨rfl, by simp [State.withTransforms, State.setRaw, h1]⟩
  · rcases h2 : rawTemperature (sint16 t) with _ | q
    · exact .inr (.inl ⟨r, rfl, rfl, by simp [State.withTransforms, State.setRaw, h1, h2, State.takeFault]⟩)
    · exact .inr (.inr ⟨r, q, rfl, rfl, by simp [State.withTransforms, State.setRaw, h1, h2, State.complete]⟩)

/-- A construction gives a fresh session or none (R143). -/
theorem State.construct_cases (s : State) (a v : Int) (f : Bool) :
    (∃ var, variantOfId v = some var ∧ a = (Config.busAddr.toNat : Int) ∧
      s.construct a v f = { s with session := some (Session.fresh var f), results := s.results ++ [.constructed] }) ∨
    s.construct a v f = { s with session := none, results := s.results ++ [.failed .invalidArgument] } := by
  unfold State.construct
  rcases hv : variantOfId v with _ | var
  · exact .inr rfl
  · by_cases ha : a = (Config.busAddr.toNat : Int)
    · exact .inl ⟨var, rfl, ha, by simp [ha, State.setSession, State.returns]⟩
    · exact .inr (by simp [ha, State.returns])

end Sys2Proof.Machine
end

