-- ==== Sys2Proof/Tests/Slice0.lean ====
section
/-! SUPPORT. Tests. The expected values are the spec's: the words of R84, the vectors of `95_test_vectors.md` (cited by their
names there), the tables of R101 and R63. The part on hypotheses shows, for each obligation with hypotheses, concrete inputs
that meet them, clause by clause. -/

namespace Sys2Proof.Tests

open Sys2Proof Sys2Proof.Machine

section

-- One theorem after another: each kernel evaluation below would otherwise hold a thread of its own.
set_option Elab.async false

/-! ### Helpers -/

/-- One field of the next state, none where the machine stops. -/
def seen {α : Type} (o : Host.Outcome State Fault Refusal) (f : State → α) : Option α :=
  match o with
  | .next s => some (f s)
  | .fault _ => none
  | .refused _ => none

/-- The reset state with a session of the variant `v`, verification on, and one answer of the sensor. -/
def ready (v : Variant) (x : Exchange) : State :=
  { State.reset with session := some (Session.fresh v true), exchanges := [x] }

/-- An answer with three intact groups (program P6). -/
def intact : Exchange := ⟨true, true, #v[0x00, 0x00, 0x81, 0xBE, 0xEF, 0x92, 0xFF, 0xFF, 0xAC]⟩

/-- The reset state after the nine bytes of program P6 have been stored in `RX`. -/
def loaded : State := State.reset.loadRx [0x00, 0x00, 0x81, 0xBE, 0xEF, 0x92, 0xFF, 0xFF, 0xAC]

/-- The same with the checksum of group `i` wrong. -/
def corrupt (i : Nat) : State := { loaded with rx := loaded.rx.write (3 * i + 2) 0x55 }

/-- An answer whose first wrong group is group `i`. -/
def corruptAnswer (i : Nat) : Exchange := { intact with bytes := intact.bytes.set! (3 * i + 2) 0x55 }

/-- A code that is none of the five. -/
def unknownCode : Word := Config.codeOf 5

theorem unknownCode_ne (c : WireCommand) : unknownCode ≠ codeOfCommand c := by
  cases c <;> simp [unknownCode, codeOfCommand, Config.cmdGetSerial, Config.cmdSelfTest, Config.cmdConditioning,
    Config.cmdMeasureRaw, Config.cmdHeaterOff]

/-! ### Well-formedness: each check refuses an ill-formed term -/

theorem test_wf_resolve_unknown : ¬ (Instr.resolve unknownCode .variant1).WellFormed := by
  simp [Instr.WellFormed, Instr.wellFormed, supported, commandOfCode_eq_none.mpr unknownCode_ne]

theorem test_wf_resolve_unsupported : ¬ (Instr.resolve Config.cmdConditioning .variant0).WellFormed := by
  simp [Instr.WellFormed, Instr.wellFormed, supported]

theorem test_wf_resolve : (Instr.resolve Config.cmdConditioning .variant1).WellFormed := by
  simp [Instr.WellFormed, Instr.wellFormed, supported]

theorem test_wf_build_mixed : ¬ (Instr.build 0x2612 true false 0x0CCD 0).WellFormed := by decide
theorem test_wf_parse_length : ¬ (Instr.parse 4 true).WellFormed := by decide
theorem test_wf_rawrh_range : ¬ (Instr.rawrh 101).WellFormed := by decide
theorem test_wf_rawt_range : ¬ (Instr.rawt 0xFFD2).WellFormed := by decide
theorem test_wf_rxwr_index : ¬ (Instr.rxwr 9 0xAA).WellFormed := by decide
theorem test_wf_txrd_index : ¬ (Instr.txrd 8).WellFormed := by decide

/-! ### Decoding: the words written out in R84 and `95_test_vectors.md` -/

theorem test_decode_crcinit : decodeTableWord 56 0x00000000000000 = some .crcinit := by decide
theorem test_decode_ignored_bits : decodeTableWord 56 0x0FFFFFFFFFFFFF = some .crcinit := by decide
theorem test_decode_crcupd : decodeTableWord 56 0x100000000000BE = some (.crcupd 0xBE) := by decide
theorem test_decode_resolve : decodeTableWord 56 0x2000000001280E = some (.resolve 0x280E .variant1) := by decide
theorem test_decode_build_bare : decodeTableWord 56 0x3000000000280E = some (.build 0x280E false false 0 0) := by decide
theorem test_decode_build : decodeTableWord 56 0x3366660CCD2612 = some (.build 0x2612 true true 0x0CCD 0x6666) := by
  decide
theorem test_decode_parse : decodeTableWord 56 0x40000000000013 = some (.parse 3 true) := by decide
theorem test_decode_rawrh : decodeTableWord 56 0x50000000000032 = some (.rawrh 50) := by decide
theorem test_decode_rawt : decodeTableWord 56 0x6000000000FFD3 = some (.rawt 0xFFD3) := by decide
theorem test_decode_rxwr : decodeTableWord 56 0x700000000002C6 = some (.rxwr 2 0xC6) := by decide
theorem test_decode_txrd : decodeTableWord 56 0x80000000000700 = some (.txrd 7) := by decide
theorem test_decode_reserved : decodeTableWord 56 0x90000000000000 = none := by decide
theorem test_decode_reserved_all_ones : decodeTableWord 56 0xFFFFFFFFFFFFFF = none := by decide

/-- The two bytes of a code, high byte first (R61). -/
theorem bytesOfFrame_code (c : Word) : bytesOfFrame 2 c.toNat = [hiByte c, loByte c] := by
  have h := c.isLt
  simp only [bytesOfFrame, List.range, List.range.loop, List.map_cons, List.map_nil, hiByte, loByte]
  congr 1

theorem test_decode_getSerialNumber : decodeTableWord 16 Config.cmdGetSerial.toNat = some .getSerialNumber := by
  simp [decodeTableWord, presentedOfBits, bytesOfFrame_code, decode, decodeFrame, decodeBare, Except.toOption]

theorem test_decode_executeSelfTest : decodeTableWord 16 Config.cmdSelfTest.toNat = some .executeSelfTest := by
  simp [decodeTableWord, presentedOfBits, bytesOfFrame_code, decode, decodeFrame, decodeBare, Except.toOption]

theorem test_decode_turnHeaterOff : decodeTableWord 16 Config.cmdHeaterOff.toNat = some .turnHeaterOff := by
  simp [decodeTableWord, presentedOfBits, bytesOfFrame_code, decode, decodeFrame, decodeBare, Except.toOption]

/-- The bytes `0C CD 3E 66 66 93` of vector V4-2 behind a code (R62). -/
theorem test_decode_executeConditioning :
    decode (.frame [hiByte Config.cmdConditioning, loByte Config.cmdConditioning, 0x0C, 0xCD, 0x3E, 0x66, 0x66, 0x93]) =
      .ok (.executeConditioning 0x0CCD 0x6666) := by
  have h : (0x3E : Byte) = crc8 [0x0C, 0xCD] ∧ (0x93 : Byte) = crc8 [0x66, 0x66] := by decide +kernel
  simp only [decode, decodeFrame, joinBytes_split, commandOfCode_conditioning, if_pos h]
  rfl

theorem test_decode_measureRawSignal :
    decode (.frame [hiByte Config.cmdMeasureRaw, loByte Config.cmdMeasureRaw, 0x0C, 0xCD, 0x3E, 0x66, 0x66, 0x93]) =
      .ok (.measureRawSignal 0x0CCD 0x6666) := by
  have h : (0x3E : Byte) = crc8 [0x0C, 0xCD] ∧ (0x93 : Byte) = crc8 [0x66, 0x66] := by decide +kernel
  simp only [decode, decodeFrame, joinBytes_split, commandOfCode_measureRaw, if_pos h]
  rfl

theorem test_decode_frame_checksum :
    decode (.frame [hiByte Config.cmdMeasureRaw, loByte Config.cmdMeasureRaw, 0x0C, 0xCD, 0x3F, 0x66, 0x66, 0x93]) =
      .error (.badChecksum
        [hiByte Config.cmdMeasureRaw, loByte Config.cmdMeasureRaw, 0x0C, 0xCD, 0x3F, 0x66, 0x66, 0x93]) := by
  have h : ¬ ((0x3F : Byte) = crc8 [0x0C, 0xCD] ∧ (0x93 : Byte) = crc8 [0x66, 0x66]) := by decide +kernel
  simp only [decode, decodeFrame, joinBytes_split, commandOfCode_measureRaw, if_neg h]

/-! ### The encoder: the words of R84 -/

theorem test_encode_build : encode (.build 0x2612 true true 0x0CCD 0x6666) = .request 0x3366660CCD2612 := by decide
theorem test_encode_parse : encode (.parse 3 true) = .request 0x40000000000013 := by decide

/-! ### The checksum: R92 and section 2.1 -/

theorem test_crc_empty : crc8 [] = 0xFF := by decide +kernel
theorem test_crc_table : [crcStep 0 0, crcStep 0 1, crcStep 0 0x80, crcStep 0 0xFF] = [0x00, 0x31, 0x7A, 0xAC] := by decide +kernel
theorem test_crc_beef : crc8 [0xBE, 0xEF] = 0x92 := by decide +kernel
theorem test_crc_order : crc8 [0xEF, 0xBE] = 0xCE := by decide +kernel
theorem test_crc_residue : crc8 [0xBE, 0xEF, 0x92] = 0 := by decide +kernel

/-! ### One step of each instruction -/

theorem test_crcinit : seen (exec .crcinit { State.reset with crc := 0x12 }) (·.crc) = some 0xFF := by decide +kernel
/-- R94, the example. -/
theorem test_crcupd : seen (exec (.crcupd 0xEF) { State.reset with crc := 0x0C }) (·.crc) = some 0x92 := by decide +kernel

theorem test_resolve_measure : seen (exec (.resolve Config.cmdMeasureRaw .variant1) State.reset)
    (fun s => (s.len, s.wait, s.err.cause)) = some (6, 50, 0) := by
  simp [exec, execResolve, metadata, metadataTable, seen, State.answer, State.setMetadata, State.complete, Except.map,
    Err.clear]

theorem test_resolve_unsupported : seen (exec (.resolve Config.cmdConditioning .variant0) loaded)
    (fun s => (s.len, s.wait, s.err.cause)) = some (0, 0, 3) := by
  simp [exec, execResolve, metadata, metadataTable, seen, State.answer, State.takeFault, Except.map, errOfFault,
    causeCode, loaded, State.loadRx, State.complete, State.reset]

/-- V4-2. -/
theorem test_build : seen (exec (.build 0x2612 true true 0x0CCD 0x6666) State.reset) (fun s => (s.txFrame, s.txlen)) =
    some ([0x26, 0x12, 0x0C, 0xCD, 0x3E, 0x66, 0x66, 0x93], 8) := by decide +kernel
/-- R81: a mixed supply is the bare frame. -/
theorem test_build_mixed : seen (exec (.build 0x2612 true false 0x0CCD 0) State.reset)
    (fun s => (s.txFrame, s.txlen, s.err.cause)) = some ([0x26, 0x12], 2, 0) := by decide +kernel

/-- V4-17. -/
theorem test_parse : seen (exec (.parse 9 true) loaded) (fun s => (s.ngrp, s.d, s.ok)) =
    some (3, #v[0x0000, 0xBEEF, 0xFFFF], #v[true, true, true]) := by decide +kernel
/-- V4-15: of two corrupt groups the first is reported. -/
theorem test_parse_mismatch :
    seen (exec (.parse 6 true) (State.reset.loadRx [0x12, 0x34, 0x00, 0xAB, 0xCD, 0x00])) (fun s => (s.ngrp, s.err)) =
    some (0, ⟨5, 0, 0x00, 0x37⟩) := by decide +kernel

/-- V5-8, the only tie. -/
theorem test_rawrh_tie : seen (exec (.rawrh 100) State.reset) (·.raw) = some 6554 := by decide +kernel
/-- V5-10. -/
theorem test_rawrh_negative : seen (exec (.rawrh 0xFFFF) State.reset) (fun s => (s.raw, s.err.cause)) = some (0, 1) := by
  decide +kernel
/-- V6-7. -/
theorem test_rawt : seen (exec (.rawt 25) State.reset) (·.raw) = some 26214 := by decide +kernel
/-- V6-11. -/
theorem test_rawt_top : seen (exec (.rawt 130) State.reset) (·.raw) = some 0xFFFF := by decide +kernel

/-- V4-31, V4-32. -/
theorem test_rxwr : seen (exec (.rxwr 8 0xAC) State.reset) (fun s => (s.rx, s.err.cause)) = some ([(8, 0xAC)], 0) := by
  decide +kernel
theorem test_rxwr_index : seen (exec (.rxwr 9 0xAA) State.reset) (fun s => (s.rx, s.err.cause)) = some ([], 6) := by decide +kernel

/-- V4-35: a leftover byte past the frame. -/
theorem test_txrd_leftover :
    seen (runInstrs [.build 0x2612 true true 0x0CCD 0x6666, .build 0x280E false false 0 0, .txrd 4] State.reset)
      (fun s => (s.rdata, s.txlen)) = some (0x3E, 2) := by decide +kernel
/-- V4-36. -/
theorem test_txrd_index : seen (exec (.txrd 8) State.reset) (fun s => (s.rdata, s.err.cause)) = some (0, 6) := by decide +kernel

/-- V4-37, V4-38: a reserved word changes `ERR` only. -/
theorem test_reserved : seen (step (State.reset.withFetchWord 56 0xFFFFFFFFFFFFFF)) (fun s => (s.err, s.crc, s.inbox)) =
    some (⟨6, 0, 0, 0⟩, 0xFF, []) := by decide +kernel

/-- A wire command whose answer parses to `gs` returns the typed view of them. -/
theorem command_received {s : State} {code : Word} {p : Option (Word × Word)} {sess : Session} {m : Metadata}
    {gs : List (Word × Bool)} (hm : metadata code sess.variant = .ok m) (hw : s.nextExchange.writeOk = true)
    (hr : s.nextExchange.readOk = true) (h0 : m.len ≠ 0)
    (hg : parseResponse (fun i => ((s.nextExchange.bytes.toList.take m.len.toNat)[i]?).getD (s.rxByte i)) m.len
      sess.verify = .ok gs) :
    ∃ u : State, s.command code p sess =
      (u.setGroups gs).complete.returns (viewOf (some code) sess.variant (gs.map Prod.fst)) ∧ u.results = s.results := by
  rcases State.command_cases s code p sess with ⟨f, h, -⟩ | ⟨m', h, h1 | h1 | h1 | ⟨-, -, -, h1⟩⟩
  · rw [hm] at h; cases h
  all_goals rw [hm] at h; cases h
  · simp [hw] at h1
  · exact absurd h1.2.1 h0
  · simp [hr] at h1
  · rw [h1]
    generalize hst : State.loadRx _ _ = st
    have hrx : st.rxByte = fun i => ((s.nextExchange.bytes.toList.take m.len.toNat)[i]?).getD (s.rxByte i) := by
      funext i
      rw [← hst, State.loadRx_rxByte]
      simp only [State.sent, State.prepare_eq]
      rw [State.popExchange_eq]
      rfl
    rcases State.parseAndReturn_cases st (some code) sess m.len with ⟨gs', hgs, he⟩ | ⟨f, hf, -⟩
    · rw [hrx, hg] at hgs
      cases hgs
      refine ⟨st, he, ?_⟩
      rw [← hst]
      simp only [State.loadRx_results, State.record_results, State.sent, State.prepare_eq, State.issue_results]
      rw [State.popExchange_eq]
    · rw [hrx, hg] at hf
      cases hf

/-- What a parsed answer is, from its evaluation. -/
theorem ok_of_toOption {α : Type} {r : Except BlockFault α} {a : α} (h : r.toOption = some a) : r = .ok a := by
  cases r with
  | ok b => cases h; rfl
  | error f => cases h

/-- Program P6: the serial number. -/
theorem test_getSerialNumber : seen (exec .getSerialNumber (ready .variant0 intact)) (·.results) =
    some [.serialNumber 0x0000 0xBEEF 0xFFFF] := by
  obtain ⟨u, hu, hr⟩ := command_received (s := ready .variant0 intact) (code := Config.cmdGetSerial) (p := none)
    (sess := Session.fresh .variant0 true) (m := ⟨9, 1⟩) (gs := [(0x0000, true), (0xBEEF, true), (0xFFFF, true)])
    (by simp [metadata, metadataTable]) rfl rfl (by decide) (ok_of_toOption (by decide +kernel))
  rw [exec, execGetSerialNumber, State.withSession_next _ _ rfl (.inr (by decide)), hu]
  simp [seen, viewOf, typedView, hr, ready, State.reset, Session.fresh]

/-- Program P2: the self-test, "all tests passed". -/
theorem test_executeSelfTest :
    seen (exec .executeSelfTest (ready .variant0 ⟨true, true, #v[0xD4, 0x00, 0xC6, 0, 0, 0, 0, 0, 0]⟩)) (·.results) =
      some [.selfTest 0xD400] ∧ selfTestPassed 0xD400 = true := by
  obtain ⟨u, hu, hr⟩ := command_received (s := ready .variant0 ⟨true, true, #v[0xD4, 0x00, 0xC6, 0, 0, 0, 0, 0, 0]⟩)
    (code := Config.cmdSelfTest) (p := none) (sess := Session.fresh .variant0 true) (m := ⟨3, 320⟩)
    (gs := [(0xD400, true)]) (by simp [metadata, metadataTable]) rfl rfl (by decide)
    (ok_of_toOption (by decide +kernel))
  rw [exec, execExecuteSelfTest, State.withSession_next _ _ rfl (.inr (by decide)), hu]
  refine ⟨?_, by decide⟩
  simp [seen, viewOf, typedView, hr, ready, State.reset, Session.fresh]

/-- R146, the example. -/
theorem test_executeConditioning :
    seen (exec (.executeConditioning 0x0CCD 0x6666) (ready .variant1 ⟨true, true, #v[0x12, 0x34, 0x37, 0, 0, 0, 0, 0, 0]⟩))
      (·.results) = some [.measured 0x1234 none] := by
  obtain ⟨u, hu, hr⟩ := command_received (s := ready .variant1 ⟨true, true, #v[0x12, 0x34, 0x37, 0, 0, 0, 0, 0, 0]⟩)
    (code := Config.cmdConditioning) (p := some (0x0CCD, 0x6666)) (sess := Session.fresh .variant1 true) (m := ⟨3, 50⟩)
    (gs := [(0x1234, true)]) (by simp [metadata, metadataTable, Session.fresh]) rfl rfl (by decide)
    (ok_of_toOption (by decide +kernel))
  rw [exec, execExecuteConditioning, State.withSession_next _ _ rfl (.inr (by decide)), hu]
  simp [seen, viewOf, typedView, hr, ready, State.reset, Session.fresh]

/-- Program P3: VOC and NOx on Variant1. -/
theorem test_measureRawSignal :
    seen (exec (.measureRawSignal 0x0CCD 0x6666)
      (ready .variant1 ⟨true, true, #v[0x12, 0x34, 0x37, 0xAB, 0xCD, 0x6F, 0, 0, 0]⟩)) (·.results) =
      some [.measured 0x1234 (some 0xABCD)] := by
  obtain ⟨u, hu, hr⟩ := command_received (s := ready .variant1 ⟨true, true, #v[0x12, 0x34, 0x37, 0xAB, 0xCD, 0x6F, 0, 0, 0]⟩)
    (code := Config.cmdMeasureRaw) (p := some (0x0CCD, 0x6666)) (sess := Session.fresh .variant1 true) (m := ⟨6, 50⟩)
    (gs := [(0x1234, true), (0xABCD, true)]) (by simp [metadata, metadataTable, Session.fresh]) rfl rfl (by decide)
    (ok_of_toOption (by decide +kernel))
  rw [exec, execMeasureRawSignal, State.withSession_next _ _ rfl (.inr (by decide)), hu]
  simp [seen, viewOf, typedView, hr, ready, State.reset, Session.fresh]

/-- R152: a failing write leaves the session as it was. -/
theorem test_turnHeaterOff_write_fails :
    seen (exec .turnHeaterOff (ready .variant1 ⟨false, true, intact.bytes⟩)) (fun s => (s.results, s.session)) =
      some ([.failed .busError], some (Session.fresh .variant1 true)) := by
  have hm : metadata Config.cmdHeaterOff .variant1 = .ok ⟨0, 1⟩ := by simp [metadata, metadataTable]
  rw [exec, execTurnHeaterOff, State.withSession_next (sess := Session.fresh .variant1 true) _ _ rfl (.inr (by decide))]
  rcases State.command_cases (ready .variant1 ⟨false, true, intact.bytes⟩) Config.cmdHeaterOff none
    (Session.fresh .variant1 true) with ⟨f, h, -⟩ | ⟨m, h, ⟨-, h1⟩ | h1 | h1 | h1⟩
  · rw [show (Session.fresh .variant1 true).variant = .variant1 from rfl, hm] at h; cases h
  · rw [h1, State.popExchange_eq, State.prepare_eq]
    rfl
  all_goals exact absurd h1.1 (by decide)

/-! ### One step of the host's interactions (R210) -/

/-- R150: a read goes to the session's address and takes `LEN` bytes. -/
theorem test_receive : seen (perform .receive { ready .variant0 intact with len := 3 }) (fun s => (s.rx, s.trace)) =
    some ([(0, 0x00), (1, 0x00), (2, 0x81)], [.read 0x59 3 (some [0x00, 0x00, 0x81])]) := by decide +kernel

/-- R210: the host may skip the `PARSE` of an empty response, which leaves `NGRP` as it was. -/
theorem test_decode_skip :
    seen (perform (.decode true) { ready .variant0 intact with ngrp := 2 }) (·.ngrp) = some 2 ∧
    seen (perform (.decode false) { ready .variant0 intact with ngrp := 2 }) (·.ngrp) = some 0 := by decide +kernel

/-- R122: a NOx value for measure-raw-signal on Variant1 only. -/
theorem test_view_nox :
    [viewOf (some Config.cmdMeasureRaw) .variant1 [1, 2], viewOf (some Config.cmdMeasureRaw) .variant0 [1],
      viewOf (some Config.cmdMeasureRaw) .variant0 [1, 2], viewOf (some Config.cmdConditioning) .variant1 [1, 2]] =
    [.measured 1 (some 2), .measured 1 none, .untyped [1, 2], .untyped [1, 2]] := by
  simp [viewOf, typedView]

/-- R212: the host keeps its earlier results. -/
theorem test_results : seen (runOperation .getSensorId { ready .variant1 intact with results := [.measured 1 none] })
    (·.results) = some [.measured 1 none, .sensorId .variant1] := by decide +kernel

/-- R150: bytes that are no command frame are written all the same. -/
theorem test_send_short_frame :
    seen (present (.frame [0x12]) (ready .variant0 intact)) (fun s => (s.trace, s.session)) =
      some ([.write 0x59 [0x12] true], some (Session.fresh .variant0 true)) := by
  simp [present, decode, decodeFrame, State.sendBytes, State.withSession, State.midCommand, State.writeBytes, frameCode,
    seen, ready, State.nextExchange, State.popExchange, State.record, Session.fresh, Config.busAddr, intact, State.reset]

/-! ### Hypotheses that can be met, one theorem for each obligation with hypotheses -/

theorem test_meets_RequestWordsAreTotal :
    9 ≤ opOf 0x90000000000000 ∧ 9 ≤ opOf 0xFFFFFFFFFFFFFF ∧
    (opOf 0x70000000000900 = 7 ∧ 8 < reqBits 0x70000000000900 8 4) ∧
    (opOf 0x70000000000F00 = 7 ∧ 8 < reqBits 0x70000000000F00 8 4) ∧
    (opOf 0x80000000000800 = 8 ∧ 7 < reqBits 0x80000000000800 8 4) ∧
    (opOf 0x80000000000F00 = 8 ∧ 7 < reqBits 0x80000000000F00 8 4) ∧
    opOf 0x80000000000000 ≤ 8 ∧
    (0x80FFFFFFFFF7FF : Req) &&& usedBits (opOf 0x80FFFFFFFFF7FF) =
      0x80000000000700 &&& usedBits (opOf 0x80FFFFFFFFF7FF) := by decide +kernel

theorem test_meets_EncodeWritesBackDecode :
    decode (.request 0x0FFFFFFFFFFFFF) = .ok .crcinit ∧
    decode (.frame [hiByte Config.cmdMeasureRaw, loByte Config.cmdMeasureRaw, 0x0C, 0xCD, 0x3E, 0x66, 0x66, 0x93]) =
      .ok (.measureRawSignal 0x0CCD 0x6666) :=
  ⟨rfl, test_decode_measureRawSignal⟩

theorem test_meets_StepRunsTheDecodedInstruction :
    ({ State.reset with inbox := [.present (.request 0x100000000000BE), .reset] } : State).inbox =
      .present (.request 0x100000000000BE) :: [.reset] ∧
    decode (.request 0x100000000000BE) = .ok (.crcupd 0xBE) := ⟨rfl, rfl⟩

theorem test_meets_PresentedProgramRunsItsMeaningsInOrder :
    ∃ t, runInstrs [.crcinit, .crcupd 0xBE] { State.reset with inbox := [] } = .next t := ⟨_, rfl⟩

theorem test_meets_CrcinitLoadsTheInitialValue : opOf 0x0FFFFFFFFFFFFF = 0 := by decide +kernel

theorem test_meets_CrcupdFeedsOneByte : opOf 0x1FFFFFFFFFFFBE = 1 ∧ isRequest (.txrd 0) = true ∧
    Instr.txrd 0 ≠ .crcinit ∧ (∀ b, Instr.txrd 0 ≠ .crcupd b) ∧ ∃ t, exec (.txrd 0) State.reset = .next t :=
  ⟨by decide +kernel, rfl, by simp, by simp, _, rfl⟩

theorem test_meets_CrcRegisterIsTheRunningChecksum :
    (∀ i ∈ [Instr.crcupd 0xBE, .txrd 0, .crcupd 0xEF], isRequest i = true ∧ i ≠ .crcinit) ∧
    isRequest (.parse 3 true) = true ∧ Instr.parse 3 true ≠ .crcinit ∧ ∀ b, Instr.parse 3 true ≠ .crcupd b := by
  simp [isRequest]

theorem test_meets_ResolveReturnsTheTableEntry :
    opOf 0x2FFFFFFFFFFFFF = 2 ∧ opOf 0x20000000000000 = 2 ∧ unknownCode ≠ Config.cmdGetSerial ∧
    unknownCode ≠ Config.cmdSelfTest ∧ unknownCode ≠ Config.cmdConditioning ∧ unknownCode ≠ Config.cmdMeasureRaw ∧
    unknownCode ≠ Config.cmdHeaterOff :=
  ⟨by decide +kernel, by decide +kernel, unknownCode_ne .getSerialNumber, unknownCode_ne .executeSelfTest,
    unknownCode_ne .executeConditioning, unknownCode_ne .measureRawSignal, unknownCode_ne .turnHeaterOff⟩

/-- The row (9, 1) in `LEN` and `WAIT`. -/
theorem test_meets_MetadataStaysARowOfTheTable :
    (∃ t, exec (.resolve Config.cmdGetSerial .variant0) State.reset = .next t ∧ t.err.cause = 0) ∧
    ∃ s t : State, (s.len, s.wait) ∈
        ([(0, 1), (3, 320), (3, 50), (3, 30), (6, 50), (9, 1)] : List (BitVec 4 × Word)) ∧
      (∀ rest, s.inbox ≠ .reset :: rest) ∧ step s = .next t :=
  ⟨by simp [exec, execResolve, metadata, metadataTable, Except.map, State.answer, State.complete, Err.clear],
    { State.reset with len := 9, wait := 1, inbox := [.present (.request 0)] }, _, by decide, by simp, rfl⟩

theorem test_meets_BuildSerialisesTheFrame : opOf 0x3FFFFFFFFFFFFF = 3 ∧ opOf 0x30000000000000 = 3 := by decide +kernel

/-- No group, one group, three groups; the first group and the last one corrupt. -/
theorem test_meets_ParseSplitsAndChecksTheResponse :
    opOf 0x4FFFFFFFFFFFFF = 4 ∧
    ((1 : BitVec 4) ≠ 0 ∧ (1 : BitVec 4) ≠ 3 ∧ (1 : BitVec 4) ≠ 6 ∧ (1 : BitVec 4) ≠ 9) ∧
    ((15 : BitVec 4) ≠ 0 ∧ (15 : BitVec 4) ≠ 3 ∧ (15 : BitVec 4) ≠ 6 ∧ (15 : BitVec 4) ≠ 9) ∧
    ((0 : BitVec 4).toNat = 3 * 0 ∧ ∀ i, i < 0 → loaded.rxStored i = loaded.rxComputed i) ∧
    ((9 : BitVec 4).toNat = 3 * 3 ∧ ∀ i, i < 3 → loaded.rxStored i = loaded.rxComputed i) ∧
    ((3 : BitVec 4).toNat = 3 * 1 ∧ (∀ j, j < 0 → (corrupt 0).rxStored j = (corrupt 0).rxComputed j) ∧
      (corrupt 0).rxStored 0 ≠ (corrupt 0).rxComputed 0) ∧
    ((9 : BitVec 4).toNat = 3 * 3 ∧ (∀ j, j < 2 → (corrupt 2).rxStored j = (corrupt 2).rxComputed j) ∧
      (corrupt 2).rxStored 2 ≠ (corrupt 2).rxComputed 2) := by decide +kernel

theorem test_meets_RxwrStoresOneByte : opOf 0x70000000000000 = 7 ∧ (0 : BitVec 4).toNat ≤ 8 ∧ (8 : BitVec 4).toNat ≤ 8 ∧
    8 < (9 : BitVec 4).toNat ∧ 8 < (15 : BitVec 4).toNat := by decide +kernel

theorem test_meets_TxrdFetchesOneByte : opOf 0x80000000000000 = 8 ∧ (0 : BitVec 4).toNat ≤ 7 ∧ (7 : BitVec 4).toNat ≤ 7 ∧
    7 < (8 : BitVec 4).toNat ∧ 7 < (15 : BitVec 4).toNat := by decide +kernel

theorem test_meets_ReadsSeeTheLatestWrites :
    (frameBytes 0x280E (suppliedParams false false 0 0))[(0 : BitVec 4).toNat]? = some 0x28 ∧
    (frameBytes 0x2612 (suppliedParams true true 0x0CCD 0x6666))[(7 : BitVec 4).toNat]? = some 0x93 ∧
    (∀ w ∈ ([] : List (BitVec 4 × Byte)), w.1.toNat ≤ 8) ∧
    (∀ w ∈ ([(8, 0xAC), (0, 0x12), (1, 0x34), (2, 0x00), (2, 0x37)] : List (BitVec 4 × Byte)), w.1.toNat ≤ 8) ∧
    (3 : BitVec 4).toNat = 3 * 1 ∧ (9 : BitVec 4).toNat = 3 * 3 ∧ lastWritten [(2, 0x00), (2, 0x37)] 2 = some 0x37 ∧
    crc8 [0x12, 0x34] = 0x37 ∧ crc8 [0x12, 0x34] ≠ 0x00 := by
  refine ⟨?_, ?_, by simp, by simp, ?_, ?_, ?_, ?_, ?_⟩ <;> decide +kernel

theorem test_meets_ParseIsRepeatable : ∃ t, exec (.parse 9 true) (corrupt 1) = .next t := ⟨_, rfl⟩

theorem test_meets_RawrhScalesTheHumidity : opOf 0x50000000000000 = 5 ∧
    (0 ≤ twosComplement 0 ∧ twosComplement 0 ≤ 100) ∧ (0 ≤ twosComplement 100 ∧ twosComplement 100 ≤ 100) ∧
    twosComplement 0xFFFF < 0 ∧ 100 < twosComplement 101 := by decide +kernel

theorem test_meets_RawtScalesTheTemperature : opOf 0x60000000000000 = 6 ∧
    (-45 ≤ twosComplement 0xFFD3 ∧ twosComplement 0xFFD3 ≤ 130) ∧ (-45 ≤ twosComplement 130 ∧ twosComplement 130 ≤ 130) ∧
    twosComplement 0xFFD2 < -45 ∧ 130 < twosComplement 131 := by decide +kernel

theorem test_meets_TransformsAreStrictlyIncreasing :
    (∃ t u, exec (.rawrh 0) State.reset = .next t ∧ exec (.rawrh 100) State.reset = .next u ∧ t.err.cause = 0 ∧
      u.err.cause = 0 ∧ twosComplement 0 < twosComplement 100) ∧
    ∃ t u, exec (.rawt 0xFFD3) State.reset = .next t ∧ exec (.rawt 130) State.reset = .next u ∧ t.err.cause = 0 ∧
      u.err.cause = 0 ∧ twosComplement 0xFFD3 < twosComplement 130 :=
  ⟨⟨_, _, rfl, rfl, by decide +kernel⟩, ⟨_, _, rfl, rfl, by decide +kernel⟩⟩

theorem test_meets_FaultingRequestsChangeOnlyErr :
    isRequest (.rawrh 101) = true ∧ ∃ t, exec (.rawrh 101) loaded = .next t ∧ t.err.cause ≠ 0 :=
  ⟨rfl, _, rfl, by decide +kernel⟩

theorem test_meets_EachCauseIsRaisedWhereTheTableSays :
    ∃ t, present (.request 0x40000000000019) (corrupt 2) = .next t ∧ t.err.cause = 5 := ⟨_, rfl, by decide +kernel⟩

theorem test_meets_NoRequestDependsOnOkOrErr : isRequest (.parse 3 true) = true := rfl

theorem test_meets_RegistersHaveTheirWriters :
    isRequest (.build 0x280E false false 0 0) = true ∧ ∃ t, exec (.build 0x280E false false 0 0) loaded = .next t ∧
      t.txlen ≠ loaded.txlen := ⟨rfl, _, rfl, by decide +kernel⟩

theorem test_meets_BuffersHaveOneReader : isRequest (.parse 3 true) = true ∧ (∀ j, Instr.parse 3 true ≠ .txrd j) ∧
    isRequest (.txrd 7) = true ∧ ∀ n v, Instr.txrd 7 ≠ .parse n v := by simp [isRequest]

theorem test_meets_WellFormedRequestsFaultOnChecksumsOnly : (Instr.parse 9 true).WellFormed ∧
    isRequest (.parse 9 true) = true ∧ ∃ t, exec (.parse 9 true) (corrupt 2) = .next t := ⟨by decide, rfl, _, rfl⟩

theorem test_meets_PseudoInstructionsDoTheirWork :
    (([0xD4] : List Byte) ≠ [] ∧ ([0xD4] : List Byte).length ≤ 9) ∧
    (([0, 0, 0x81, 0xBE, 0xEF, 0x92, 0xFF, 0xFF, 0xAC] : List Byte) ≠ [] ∧
      ([0, 0, 0x81, 0xBE, 0xEF, 0x92, 0xFF, 0xFF, 0xAC] : List Byte).length ≤ 9) ∧ 0 < 8 ∧ 7 < 8 := by decide

/-- The two accepted variants; a wrong address (0x5A) and the two identifiers beside the accepted ones. -/
theorem test_meets_ConstructionValidatesItsArguments :
    ((0x59 : Int) = 0x59 ∧ (0 : Int) = 0) ∧ ((0x59 : Int) = 0x59 ∧ (1 : Int) = 1) ∧
    ((0x5A : Int) ≠ 0x59 ∨ (0 : Int) ≠ 0 ∧ (0 : Int) ≠ 1) ∧
    ((0x59 : Int) ≠ 0x59 ∨ (2 : Int) ≠ 0 ∧ (2 : Int) ≠ 1) ∧ ((0x59 : Int) ≠ 0x59 ∨ (-1 : Int) ≠ 0 ∧ (-1 : Int) ≠ 1) := by
  decide

theorem test_meets_SensorIdIsAPureAccessor :
    (ready .variant1 intact).session = some (Session.fresh .variant1 true) := rfl

theorem started (v : Variant) (x : Exchange) : Started (ready v x) (Session.fresh v true) :=
  ⟨rfl, .inl (by cases v <;> decide)⟩

theorem answers (v : Variant) (n : Nat) (hn : n ≤ 3) : Answers (ready v intact) (Session.fresh v true) intact n := by
  have h : ∀ i, i < 3 → crc8 [answerByte intact (3 * i), answerByte intact (3 * i + 1)] = answerByte intact (3 * i + 2) := by
    decide +kernel
  exact ⟨started v intact, rfl, rfl, rfl, fun _ i hi => h i (by omega)⟩

theorem test_meets_GetSerialNumberReturnsThreeWords :
    Answers (ready .variant0 intact) (Session.fresh .variant0 true) intact 3 := answers _ _ (by decide)

theorem test_meets_SelfTestReturnsItsCode :
    Answers (ready .variant0 intact) (Session.fresh .variant0 true) intact 1 := answers _ _ (by decide)

theorem test_meets_ConditioningReturnsVoc :
    Answers (ready .variant1 intact) (Session.fresh .variant1 true) intact 1 ∧
    (Session.fresh .variant1 true).variant = .variant1 := ⟨answers _ _ (by decide), rfl⟩

theorem test_meets_MeasureReturnsVocAndNox :
    ((Session.fresh .variant0 true).variant = .variant0 ∧
      Answers (ready .variant0 intact) (Session.fresh .variant0 true) intact 1) ∧
    (Session.fresh .variant1 true).variant = .variant1 ∧
      Answers (ready .variant1 intact) (Session.fresh .variant1 true) intact 2 :=
  ⟨⟨rfl, answers _ _ (by decide)⟩, rfl, answers _ _ (by decide)⟩

theorem test_meets_HeaterOffWorksFromAnyState :
    ((ready .variant0 intact).session = some (Session.fresh .variant0 true) ∧
      (ready .variant0 intact).nextExchange.writeOk = true) ∧
    (ready .variant0 ⟨false, true, intact.bytes⟩).session = some (Session.fresh .variant0 true) ∧
      (ready .variant0 ⟨false, true, intact.bytes⟩).nextExchange.writeOk = false := ⟨⟨rfl, rfl⟩, rfl, rfl⟩

/-- The same from `AwaitingResponse`. -/
theorem test_meets_HeaterOffWorksFromAnyState_awaiting :
    ∃ (s : State) (sess : Session), s.session = some sess ∧ sess.sstate = .awaitingResponse ∧ s.sentEpoch = s.epoch ∧
      s.nextExchange.writeOk = true :=
  ⟨{ ready .variant0 intact with session := some ⟨0x59, .variant0, true, some Config.cmdMeasureRaw, .awaitingResponse⟩ },
    _, rfl, rfl, rfl, rfl⟩

theorem test_meets_CommandIsItsRequestSequence :
    Started (ready .variant0 intact) (Session.fresh .variant0 true) ∧
    wireParts .getSerialNumber = some (Config.cmdGetSerial, none) ∧ (ready .variant0 intact).nextExchange.writeOk = true ∧
    (ready .variant0 intact).nextExchange.readOk = true ∧
    ∃ r, exec (.resolve Config.cmdGetSerial .variant0) (ready .variant0 intact) = .next r ∧ r.err.cause = 0 :=
  ⟨started _ _, rfl, rfl, rfl,
    by simp [exec, execResolve, metadata, metadataTable, Except.map, State.answer, State.complete, Err.clear]⟩

theorem test_meets_SentFrameIsTheEncoding :
    Started (ready .variant1 intact) (Session.fresh .variant1 true) ∧
    encode (.executeConditioning 0x0CCD 0x6666) =
      .frame (frameBytes Config.cmdConditioning (some (0x0CCD, 0x6666))) ∧
    hasCommand (.executeConditioning 0x0CCD 0x6666) (Session.fresh .variant1 true).variant = true :=
  ⟨started _ _, rfl, rfl⟩

theorem test_meets_SentCommandSetsTheSessionState :
    Started (ready .variant1 intact) (Session.fresh .variant1 true) ∧
    wireParts (.executeConditioning 0x0CCD 0x6666) = some (Config.cmdConditioning, some (0x0CCD, 0x6666)) ∧
    hasCommand (.executeConditioning 0x0CCD 0x6666) (Session.fresh .variant1 true).variant = true ∧
    (ready .variant1 intact).nextExchange.writeOk = true := ⟨started _ _, rfl, rfl, rfl⟩

theorem test_meets_BusErrorsReachTheCaller :
    (Started (ready .variant1 ⟨false, true, intact.bytes⟩) (Session.fresh .variant1 true) ∧
      wireParts .turnHeaterOff = some (Config.cmdHeaterOff, none) ∧
      hasCommand .turnHeaterOff (Session.fresh .variant1 true).variant = true ∧
      (ready .variant1 ⟨false, true, intact.bytes⟩).nextExchange.writeOk = false) ∧
    Started (ready .variant1 ⟨true, false, intact.bytes⟩) (Session.fresh .variant1 true) ∧
      wireParts .getSerialNumber = some (Config.cmdGetSerial, none) ∧
      hasCommand .getSerialNumber (Session.fresh .variant1 true).variant = true ∧
      (ready .variant1 ⟨true, false, intact.bytes⟩).nextExchange.writeOk = true ∧
      (ready .variant1 ⟨true, false, intact.bytes⟩).nextExchange.readOk = false ∧
      responseGroups .getSerialNumber (Session.fresh .variant1 true).variant ≠ 0 :=
  ⟨⟨started _ _, rfl, rfl, rfl⟩, started _ _, rfl, rfl, rfl, rfl, by decide⟩

/-- The first group and the last group of the longest answer. -/
theorem test_meets_CorruptAnswersAreReported : ∀ k ∈ [0, 2],
    Started (ready .variant1 (corruptAnswer k)) (Session.fresh .variant1 true) ∧
    wireParts .getSerialNumber = some (Config.cmdGetSerial, none) ∧
    hasCommand .getSerialNumber (Session.fresh .variant1 true).variant = true ∧
    (ready .variant1 (corruptAnswer k)).nextExchange.writeOk = true ∧
    (ready .variant1 (corruptAnswer k)).nextExchange.readOk = true ∧ (Session.fresh .variant1 true).verify = true ∧
    k < responseGroups .getSerialNumber (Session.fresh .variant1 true).variant ∧
    (∀ j, j < k → answerIntact (ready .variant1 (corruptAnswer k)).nextExchange j) ∧
    ¬ answerIntact (ready .variant1 (corruptAnswer k)).nextExchange k := by
  intro k hk
  refine ⟨started _ _, rfl, rfl, rfl, rfl, rfl, ?_⟩
  unfold answerIntact
  revert k
  decide +kernel

theorem test_meets_UnsupportedConditioningIsNeverSent :
    Started (ready .variant0 intact) (Session.fresh .variant0 true) ∧
    (Session.fresh .variant0 true).variant = .variant0 := ⟨started _ _, rfl⟩

/-- Both operands in range; the humidity out of range; the temperature alone out of range. -/
theorem test_meets_TransformsComeBeforeTheCommand :
    Started (ready .variant1 intact) (Session.fresh .variant1 true) ∧
    (∃ a b, exec (.rawrh 50) (ready .variant1 intact) = .next a ∧ exec (.rawt 25) a = .next b ∧ a.err.cause = 0 ∧
      b.err.cause = 0) ∧
    (∃ a b, exec (.rawrh 101) (ready .variant1 intact) = .next a ∧ exec (.rawt 131) a = .next b ∧ a.err.cause ≠ 0) ∧
    ∃ a b, exec (.rawrh 100) (ready .variant1 intact) = .next a ∧ exec (.rawt 131) a = .next b ∧ a.err.cause = 0 ∧
      b.err.cause ≠ 0 :=
  ⟨started _ _, ⟨_, _, rfl, rfl, by decide +kernel⟩, ⟨_, _, rfl, rfl, by decide +kernel⟩, _, _, rfl, rfl,
    by decide +kernel⟩

theorem test_meets_WireCommandsStopWithoutASession :
    ({ State.reset with session := none } : State).session = none ∧
    ∃ (s : State) (sess : Session), s.session = some sess ∧ sess.sstate = .awaitingResponse ∧ s.sentEpoch = s.epoch ∧
      frameCode s.txFrame ≠ some Config.cmdHeaterOff :=
  ⟨rfl, { State.reset with session := some ⟨0x59, .variant0, true, some 0, .awaitingResponse⟩ }, _, rfl, rfl, rfl,
    by simp [State.txFrame, State.reset, frameCode]⟩

/-- Both frame lengths with an unknown code; a bare measure command and a conditioning one; the lengths beside the two legal
ones; a wrong checksum; both answers of the transport. -/
theorem test_meets_FramesNoCommandHas :
    (∀ v, Started (ready v intact) (Session.fresh v true) ∧
      Started (ready v ⟨false, true, intact.bytes⟩) (Session.fresh v true)) ∧
    ([] : List Byte).length = 0 ∧ ([0, 0, 0x81, 0, 0, 0x81] : List Byte).length = 6 ∧
    (∀ c, joinBytes (hiByte unknownCode) (loByte unknownCode) ≠ codeOfCommand c) ∧
    ((none : Option (Word × Word)).isSome = true ↔
      WireCommand.measureRawSignal ≠ .executeConditioning ∧ WireCommand.measureRawSignal ≠ .measureRawSignal) ∧
    (WireCommand.executeConditioning = .executeConditioning → (Session.fresh .variant1 true).variant = .variant1) ∧
    (∀ n ∈ [0, 1, 3, 7, 9], (List.replicate n (0 : Byte)).length ≠ 2 ∧ (List.replicate n (0 : Byte)).length ≠ 8) ∧
    (0x3F : Byte) ≠ crc8 [0x0C, 0xCD] ∧ (ready .variant0 intact).nextExchange.writeOk = true ∧
    (ready .variant0 ⟨false, true, intact.bytes⟩).nextExchange.writeOk = false :=
  ⟨fun v => ⟨started v _, started v _⟩, rfl, rfl, by simpa using unknownCode_ne, by simp, fun _ => rfl, by decide,
    by decide +kernel, rfl, rfl⟩

/-- A session that can start, one that starts again after a reset in the middle of a command, and turn-heater-off in the middle
of a command. -/
theorem test_meets_SendWritesTheBuiltFrame :
    Started (ready .variant0 intact) (Session.fresh .variant0 true) ∧
    Started { ready .variant0 intact with
        session := some ⟨0x59, .variant0, true, some 0, .awaitingResponse⟩, epoch := 1 }
      ⟨0x59, .variant0, true, some 0, .awaitingResponse⟩ ∧
    ({ ready .variant0 intact with session := some ⟨0x59, .variant0, true, some 0, .awaitingResponse⟩ } : State).session =
      some ⟨0x59, .variant0, true, some 0, .awaitingResponse⟩ ∧
    (ready .variant0 intact).nextExchange.writeOk = true ∧
    (ready .variant0 ⟨false, true, intact.bytes⟩).nextExchange.writeOk = false :=
  ⟨started _ _, ⟨rfl, .inr (by decide)⟩, rfl, rfl, rfl⟩

/-- No byte, nine bytes, a failing read; a `PARSE` that succeeds, one that faults, one skipped; a session whose last command was
turn-heater-off; a code that has a view, with too few words for it. -/
theorem test_meets_ReceiveAndDecodeOneByOne :
    ((ready .variant0 intact).session = some (Session.fresh .variant0 true) ∧ (ready .variant0 intact).len = 0) ∧
    (({ ready .variant0 intact with len := 9 } : State).len ≠ 0 ∧
      ({ ready .variant0 intact with len := 9 } : State).len.toNat ≤ 9 ∧
      ({ ready .variant0 intact with len := 9 } : State).nextExchange.readOk = true) ∧
    ({ ready .variant0 ⟨true, false, intact.bytes⟩ with len := 3 } : State).nextExchange.readOk = false ∧
    (∃ p, exec (.parse ({ loaded with len := 9 } : State).len true) { loaded with len := 9 } = .next p ∧ p.err.cause = 0) ∧
    (∃ p, exec (.parse ({ corrupt 2 with len := 9 } : State).len true) { corrupt 2 with len := 9 } = .next p ∧
      p.err.cause ≠ 0) ∧
    (∃ (s : State) (sess : Session), s.session = some sess ∧ s.len = 0 ∧ sess.lastCmd = some Config.cmdHeaterOff) ∧
    viewOf (some Config.cmdMeasureRaw) .variant1 [0x1234, 0xABCD] = .measured 0x1234 (some 0xABCD) ∧
    ∀ i code params, wireParts i = some (code, params) → hasCommand i .variant0 = true →
      (some Config.cmdGetSerial : Option Word) = some code → [0x1234, 0xABCD].length ≠ responseGroups i .variant0 := by
  refine ⟨⟨rfl, rfl⟩, ⟨by decide, by decide, rfl⟩, rfl, ⟨_, rfl, by decide +kernel⟩, ⟨_, rfl, by decide +kernel⟩,
    ⟨{ ready .variant0 intact with
      session := some ⟨0x59, .variant0, true, some Config.cmdHeaterOff, .awaitingResponse⟩ }, _, rfl, rfl, rfl⟩,
    by simp [viewOf, typedView], ?_⟩
  intro i code params hw _ hc
  cases i <;> simp [wireParts] at hw <;> obtain ⟨rfl, -⟩ := hw <;>
    simp [responseGroups, Config.cmdGetSerial, Config.cmdSelfTest, Config.cmdConditioning, Config.cmdMeasureRaw,
      Config.cmdHeaterOff] at hc ⊢

theorem test_meets_InteractionsMakeUpTheCommand :
    Started (ready .variant1 intact) (Session.fresh .variant1 true) ∧
    wireParts (.measureRawSignal 0x0CCD 0x6666) = some (Config.cmdMeasureRaw, some (0x0CCD, 0x6666)) ∧
    hasCommand (.measureRawSignal 0x0CCD 0x6666) (Session.fresh .variant1 true).variant = true ∧
    (ready .variant1 intact).exchanges = intact :: [] ∧ intact.writeOk = true ∧ intact.readOk = true :=
  ⟨started _ _, rfl, rfl, rfl, rfl, rfl⟩

/-- A state past reset that meets the invariant: a parameter frame was built, and the host builds another. -/
theorem test_meets_EveryStepKeepsTheInvariant :
    ∃ s t : State, Inv s ∧ s.txlen = 8 ∧ step s = .next t := by
  refine ⟨{ State.reset with
      tx := [(0, 0x26), (1, 0x12), (2, 0x0C), (3, 0xCD), (4, 0x3E), (5, 0x66), (6, 0x66), (7, 0x93)]
      txlen := 8
      inbox := [.present (.request 0x3366660CCD2612)] }, _, ?_, rfl, rfl⟩
  constructor
  · decide
  · decide
  · decide
  · decide +kernel
  · intro _; decide +kernel
  · decide
  · decide
  · decide
  · intro sess h
    cases h
    exact ⟨rfl, .inl rfl⟩
  · exact Nat.le_refl _

theorem test_meets_MeasuringMeansTheHeaterMayBeOn :
    ∃ (s t : State) (sess : Session), s.session = some sess ∧ sess.sstate = .measuring ∧ HeatingUnclosed s.trace ∧
      heaterMayBeOn s.trace = true ∧ step s = .next t :=
  ⟨{ State.reset with
      session := some ⟨0x59, .variant1, true, some Config.cmdMeasureRaw, .measuring⟩
      trace := [.write 0x59 (frameBytes Config.cmdMeasureRaw (some (0, 0))) true]
      inbox := [.present (.request 0)] }, _, _, rfl, rfl,
    ⟨[], 0x59, _, [], rfl, by simp [heatingFrame, frameCode, frameBytes, guardedWord], by simp⟩,
    by simp [heaterMayBeOn, heatAfter, coolingFrame, neutralFrame, frameBytes, guardedWord], rfl⟩

end

end Sys2Proof.Tests
end

section
/-! The nine requests of the block, seen through what they assign before `ERR` is written; and from that the statements of
`10_state.md`: who reads and writes `CRC` (R23), `OK` and `ERR` (R30), and what reset leaves (R35). -/

namespace Sys2Proof.Machine

/-! ### What a request assigns -/

/-- What a request (R70) makes of the registers, or the fault it raises; `ERR` is not yet written (R31, R171). -/
def requestEffect (s : State) : (i : Instr) → isRequest i = true → Except BlockFault State
  | .crcinit, _ => .ok { s with crc := crcInitial }
  | .crcupd b, _ => .ok { s with crc := crcStep s.crc b }
  | .resolve code var, _ => (metadata code var).map s.setMetadata
  | .build code rhp tp rhraw traw, _ => .ok (s.buildFrame code (suppliedParams rhp tp rhraw traw))
  | .parse elen ver, _ => s.parseFrame elen ver
  | .rawrh val, _ => s.setRaw (rawHumidity (sint16 val))
  | .rawt val, _ => s.setRaw (rawTemperature (sint16 val))
  | .rxwr idx b, _ => if rxCap ≤ idx.toNat then .error .illegalRequest else .ok { s with rx := s.rx.write idx.toNat b }
  | .txrd idx, _ => if txCap ≤ idx.toNat then .error .illegalRequest else .ok (s.fetchTx idx.toNat)

/-- Every request is its effect with `ERR` written after it. -/
theorem exec_request (s : State) : ∀ (i : Instr) (h : isRequest i = true),
    exec i s = .next (s.answer (requestEffect s i h))
  | .crcinit, _ => rfl
  | .crcupd _, _ => rfl
  | .resolve _ _, _ => rfl
  | .build _ _ _ _ _, _ => rfl
  | .parse _ _, _ => rfl
  | .rawrh _, _ => rfl
  | .rawt _, _ => rfl
  | .rxwr _ _, _ => rfl
  | .txrd _, _ => rfl

/-- `PARSE` stores the groups it decodes, or takes the fault. -/
theorem exec_parse (s : State) (elen : BitVec 4) (ver : Bool) :
    exec (.parse elen ver) s = .next (s.answer ((parseResponse s.rxByte elen ver).map s.setGroups)) := rfl

/-! ### Changing a register a request does not use -/

/-- The change `g` of the state touches nothing that `RESOLVE`, `BUILD`, `RAWRH`, `RAWT`, `RXWR` or `TXRD` reads or writes. -/
structure Untouched (g : State → State) : Prop where
  setMetadata : ∀ s m, (g s).setMetadata m = g (s.setMetadata m)
  buildFrame : ∀ s code params, (g s).buildFrame code params = g (s.buildFrame code params)
  raw : ∀ s v, { g s with raw := v } = g { s with raw := v }
  rx : ∀ s j b, { g s with rx := (g s).rx.write j b } = g { s with rx := s.rx.write j b }
  fetchTx : ∀ s j, (g s).fetchTx j = g (s.fetchTx j)

theorem Untouched.crc (c : Byte) : Untouched fun t => { t with crc := c } :=
  ⟨fun _ _ => rfl, fun _ _ _ => rfl, fun _ _ => rfl, fun _ _ _ => rfl, fun _ _ => rfl⟩

theorem Untouched.err (e : Err) : Untouched fun t => { t with err := e } :=
  ⟨fun _ _ => rfl, fun _ _ _ => rfl, fun _ _ => rfl, fun _ _ _ => rfl, fun _ _ => rfl⟩

theorem Untouched.ok (k : Vector Bool 3) : Untouched fun t => { t with ok := k } :=
  ⟨fun _ _ => rfl, fun _ _ _ => rfl, fun _ _ => rfl, fun _ _ _ => rfl, fun _ _ => rfl⟩

/-- A transform's result is stored the same way after such a change. -/
theorem Untouched.setRaw {g : State → State} (hg : Untouched g) (s : State) (r : Option Word) :
    (g s).setRaw r = (s.setRaw r).map g := by
  cases r with
  | none => rfl
  | some v => exact congrArg Except.ok (hg.raw s v)

/-- Those six requests commute with such a change. -/
theorem Untouched.requestEffect_comm {g : State → State} (hg : Untouched g) (s : State) (i : Instr) (h : isRequest i = true)
    (hinit : i ≠ .crcinit) (hupd : ∀ b, i ≠ .crcupd b) (hparse : ∀ n v, i ≠ .parse n v) :
    requestEffect (g s) i h = (requestEffect s i h).map g := by
  match i, h with
  | .crcinit, _ => exact absurd rfl hinit
  | .crcupd b, _ => exact absurd rfl (hupd b)
  | .parse n v, _ => exact absurd rfl (hparse n v)
  | .resolve code var, _ =>
    simp only [requestEffect]
    cases metadata code var with
    | error f => rfl
    | ok m => exact congrArg Except.ok (hg.setMetadata s m)
  | .build code rhp tp rhraw traw, _ => exact congrArg Except.ok (hg.buildFrame s code _)
  | .rawrh val, _ => exact hg.setRaw s _
  | .rawt val, _ => exact hg.setRaw s _
  | .rxwr idx b, _ =>
    simp only [requestEffect]
    split
    · rfl
    · exact congrArg Except.ok (hg.rx s _ b)
  | .txrd idx, _ =>
    simp only [requestEffect]
    split
    · rfl
    · exact congrArg Except.ok (hg.fetchTx s _)

/-- `PARSE` commutes with a change that leaves `RX` alone and commutes with the storing of groups. -/
theorem State.parseFrame_comm {g : State → State} {s : State} (hrx : (g s).rxByte = s.rxByte)
    (hgroups : ∀ gs, (g s).setGroups gs = g (s.setGroups gs)) (elen : BitVec 4) (ver : Bool) :
    (g s).parseFrame elen ver = (s.parseFrame elen ver).map g := by
  unfold State.parseFrame
  rw [hrx]
  cases parseResponse s.rxByte elen ver with
  | error f => rfl
  | ok gs => exact congrArg Except.ok (hgroups gs)

/-- A change that commutes with both ways of writing `ERR` commutes with the answer. -/
theorem State.answer_comm {g : State → State} (s : State) (r : Except BlockFault State)
    (hok : ∀ t, (g t).complete = g t.complete) (hfault : ∀ f, (g s).takeFault f = g (s.takeFault f)) :
    (g s).answer (r.map g) = g (s.answer r) := by
  cases r with
  | ok t => exact hok t
  | error f => exact hfault f

/-- Where the change `g` can be made to a request's answer without a difference, its next state is fixed by `g`. -/
theorem exec_fixed_of_comm {i : Instr} {s : State} {g : State → State} (h : isRequest i = true)
    (hcomm : exec i s = mapNext g (exec i s)) : ∃ t, exec i s = .next t ∧ t = g t := by
  rw [exec_request s i h] at hcomm ⊢
  exact ⟨_, rfl, by simpa only [mapNext, Host.Outcome.next.injEq] using hcomm⟩

/-! ### `CRC` (R23) -/

/-- A request of the other units neither reads nor writes `CRC`. -/
theorem exec_setCrc (i : Instr) (s : State) (c : Byte) (h : isRequest i = true) (hinit : i ≠ .crcinit)
    (hupd : ∀ b, i ≠ .crcupd b) :
    exec i { s with crc := c } = mapNext (fun t => { t with crc := c }) (exec i s) := by
  have heffect : requestEffect { s with crc := c } i h = (requestEffect s i h).map fun t => { t with crc := c } := by
    by_cases hparse : ∃ n v, i = .parse n v
    · obtain ⟨n, v, rfl⟩ := hparse
      exact State.parseFrame_comm (g := fun t => { t with crc := c }) rfl (fun _ => rfl) n v
    · exact (Untouched.crc c).requestEffect_comm s i h hinit hupd fun n v hi => hparse ⟨n, v, hi⟩
  rw [exec_request _ i h, exec_request s i h, heffect]
  exact congrArg Host.Outcome.next
    (State.answer_comm (g := fun t => { t with crc := c }) s _ (fun _ => rfl) fun _ => rfl)

/-- A request of the other units leaves `CRC` as it was. -/
theorem exec_keeps_crc (i : Instr) (s : State) (h : isRequest i = true) (hinit : i ≠ .crcinit)
    (hupd : ∀ b, i ≠ .crcupd b) : ∃ t, exec i s = .next t ∧ t.crc = s.crc := by
  obtain ⟨t, ht, hfixed⟩ := exec_fixed_of_comm h (exec_setCrc i s s.crc h hinit hupd)
  exact ⟨t, ht, by rw [hfixed]⟩

/-- A request other than `CRCINIT` takes `CRC` over the bytes it feeds. -/
theorem exec_crc (i : Instr) (s : State) (h : isRequest i = true) (hinit : i ≠ .crcinit) :
    ∃ t, exec i s = .next t ∧ t.crc = crcFrom s.crc (fedByte i).toList := by
  by_cases hupd : ∃ b, i = .crcupd b
  · obtain ⟨b, rfl⟩ := hupd
    exact ⟨_, rfl, rfl⟩
  · have hfed : fedByte i = none := by
      cases i with
      | crcupd b => exact absurd ⟨b, rfl⟩ hupd
      | _ => rfl
    obtain ⟨t, ht, hcrc⟩ := exec_keeps_crc i s h hinit fun b hb => hupd ⟨b, hb⟩
    exact ⟨t, ht, by rw [hcrc, hfed]; rfl⟩

theorem crcFrom_append (c : Byte) (as bs : List Byte) : crcFrom c (as ++ bs) = crcFrom (crcFrom c as) bs :=
  List.foldl_append

theorem fedBytes_cons (i : Instr) (is : List Instr) : fedBytes (i :: is) = (fedByte i).toList ++ fedBytes is := by
  unfold fedBytes
  rw [List.filterMap_cons]
  cases fedByte i <;> rfl

theorem runInstrs_cons {i : Instr} {s t : State} (h : exec i s = .next t) (is : List Instr) :
    runInstrs (i :: is) s = runInstrs is t := by
  simp only [runInstrs, h]

/-- Requests without a `CRCINIT` take `CRC` over all the bytes they feed. -/
theorem runInstrs_crc (is : List Instr) (s : State) (h : ∀ i ∈ is, isRequest i = true ∧ i ≠ .crcinit) :
    ∃ t, runInstrs is s = .next t ∧ t.crc = crcFrom s.crc (fedBytes is) := by
  induction is generalizing s with
  | nil => exact ⟨s, rfl, rfl⟩
  | cons i is ih =>
    obtain ⟨⟨hreq, hinit⟩, hrest⟩ := List.forall_mem_cons.1 h
    obtain ⟨t, ht, htcrc⟩ := exec_crc i s hreq hinit
    obtain ⟨u, hu, hucrc⟩ := ih t hrest
    exact ⟨u, by rw [runInstrs_cons ht, hu], by rw [hucrc, htcrc, fedBytes_cons, crcFrom_append]⟩

/-- Settles O10: the running checksum by induction over the requests, and that no request of another unit uses `CRC`. -/
theorem crcRegisterIsTheRunningChecksum : Obligations.CrcRegisterIsTheRunningChecksum := by
  refine ⟨fun is s h => ?_, fun i s c h hinit hupd => ⟨exec_setCrc i s c h hinit hupd, exec_keeps_crc i s h hinit hupd⟩⟩
  exact runInstrs_crc is ({ s with crc := crcInitial } : State).complete h

/-! ### `ERR` and `OK` (R30) -/

/-- No request reads `ERR`. -/
theorem requestEffect_setErr (s : State) (e : Err) (i : Instr) (h : isRequest i = true) :
    requestEffect { s with err := e } i h = (requestEffect s i h).map fun t => { t with err := e } := by
  cases i with
  | crcinit => rfl
  | crcupd b => rfl
  | parse n v => exact State.parseFrame_comm (g := fun t => { t with err := e }) rfl (fun _ => rfl) n v
  | _ => exact (Untouched.err e).requestEffect_comm s _ h nofun nofun nofun

/-- What stood in `ERR` is lost with the answer. -/
theorem State.answer_setErr (s : State) (e : Err) (r : Except BlockFault State) :
    ({ s with err := e } : State).answer (r.map fun t => { t with err := e }) = s.answer r := by
  cases r with
  | ok t => rfl
  | error f => rfl

theorem exec_setErr (i : Instr) (s : State) (e : Err) (h : isRequest i = true) :
    exec i { s with err := e } = exec i s := by
  rw [exec_request _ i h, exec_request s i h, requestEffect_setErr, State.answer_setErr]

/-- A request other than `PARSE` neither reads nor writes `OK`. -/
theorem exec_setOk (i : Instr) (s : State) (k : Vector Bool 3) (h : isRequest i = true) (hparse : ∀ n v, i ≠ .parse n v) :
    exec i { s with ok := k } = mapNext (fun t => { t with ok := k }) (exec i s) := by
  have heffect : requestEffect { s with ok := k } i h = (requestEffect s i h).map fun t => { t with ok := k } := by
    cases i with
    | crcinit => rfl
    | crcupd b => rfl
    | _ => exact (Untouched.ok k).requestEffect_comm s _ h nofun nofun hparse
  rw [exec_request _ i h, exec_request s i h, heffect]
  exact congrArg Host.Outcome.next
    (State.answer_comm (g := fun t => { t with ok := k }) s _ (fun _ => rfl) fun _ => rfl)

/-- Between the state `t` a request leaves from `s` and the state `u` it leaves where `OK` was `k` before it, only the `OK` bits
that the request keeps differ. -/
def OkBitsKept (s : State) (k : Vector Bool 3) (t u : State) : Prop :=
  u = { t with ok := u.ok } ∧ ∀ j : Fin 3, u.ok[j] = t.ok[j] ∨ t.ok[j] = s.ok[j] ∧ u.ok[j] = k[j]

/-- A request that leaves `OK` alone keeps every bit. -/
theorem OkBitsKept.of_ok_eq {s t : State} (h : t.ok = s.ok) (k : Vector Bool 3) : OkBitsKept s k t { t with ok := k } :=
  ⟨rfl, fun j => .inr ⟨by rw [h], rfl⟩⟩

theorem State.setGroups_ok_getElem (s : State) (gs : List (Word × Bool)) (j : Fin 3) :
    (s.setGroups gs).ok[j] = (gs[j.val]?.map Prod.snd).getD s.ok[j] :=
  Vector.getElem_ofFn j.isLt

/-- Storing groups overwrites the bits of the groups and keeps the others (R113). -/
theorem OkBitsKept.setGroups (s : State) (k : Vector Bool 3) (gs : List (Word × Bool)) :
    OkBitsKept s k (s.setGroups gs).complete (({ s with ok := k } : State).setGroups gs).complete := by
  refine ⟨rfl, fun j => ?_⟩
  simp only [State.complete_ok, State.setGroups_ok_getElem]
  cases gs[j.val]? with
  | none => exact .inr ⟨rfl, rfl⟩
  | some g => exact .inl rfl

theorem exec_okBitsKept (i : Instr) (s : State) (k : Vector Bool 3) (h : isRequest i = true) :
    ∃ t u, exec i s = .next t ∧ exec i { s with ok := k } = .next u ∧ OkBitsKept s k t u := by
  by_cases hparse : ∃ n v, i = .parse n v
  · obtain ⟨n, v, rfl⟩ := hparse
    refine ⟨_, _, exec_parse s n v, exec_parse { s with ok := k } n v, ?_⟩
    rw [show ({ s with ok := k } : State).rxByte = s.rxByte from rfl]
    cases parseResponse s.rxByte n v with
    | error f => exact .of_ok_eq (t := s.takeFault f) rfl k
    | ok gs => exact .setGroups s k gs
  · have hcomm k' := exec_setOk i s k' h fun n v hi => hparse ⟨n, v, hi⟩
    obtain ⟨t, ht, hfixed⟩ := exec_fixed_of_comm h (hcomm s.ok)
    exact ⟨t, { t with ok := k }, ht, by rw [hcomm k, ht]; rfl, .of_ok_eq (by rw [hfixed]) k⟩

/-- Settles O29: a request writes `ERR` without reading it, and only `PARSE` uses `OK`, which it writes without reading it. -/
theorem noRequestDependsOnOkOrErr : Obligations.NoRequestDependsOnOkOrErr :=
  fun i s h => ⟨fun e => exec_setErr i s e h, fun k => exec_okBitsKept i s k h⟩

/-! ### Reset (R35) -/

/-- Settles O35: the reset state holds these values by definition. -/
theorem resetLeavesTheGivenValues : Obligations.ResetLeavesTheGivenValues :=
  ⟨rfl, rfl, rfl, rfl, rfl, rfl, rfl⟩

end Sys2Proof.Machine
end

section
/-! The decoder of request words (R68 to R79) by `OP`: an equation for each request, a reserved `OP`, and the bits a format does
not name; and from that the statement of `30_encoding.md` that request words are total (R79). -/

namespace Sys2Proof.Machine

/-! ### The fields of a request word (R11) -/

/-- The decoder's field spells the number the spec writes `REQ[lo+n-1:lo]`. -/
theorem reqField_toNat (w : Req) (lo n : Nat) : (reqField w lo n).toNat = reqBits w lo n := by
  rw [reqField, BitVec.extractLsb'_toNat, Nat.shiftRight_eq_div_pow, reqBits]

theorem opOf_eq_reqField (w : Req) : opOf w = (reqField w 52 4).toNat :=
  (reqField_toNat w 52 4).symm

/-- A mask that has every bit of a field leaves that field as it is. -/
theorem reqField_and_of_allOnes {m : Req} {lo n : Nat} (hm : reqField m lo n = BitVec.allOnes n) (w : Req) :
    reqField (w &&& m) lo n = reqField w lo n := by
  have hand : reqField (w &&& m) lo n = reqField w lo n &&& reqField m lo n := BitVec.extractLsb'_and
  rw [hand, hm, BitVec.and_allOnes]

/-- A mask that has a bit leaves that bit as it is. -/
theorem reqBit_and_of_true {m : Req} {i : Nat} (hm : reqBit m i = true) (w : Req) : reqBit (w &&& m) i = reqBit w i := by
  have hand : reqBit (w &&& m) i = (reqBit w i && reqBit m i) := BitVec.getLsbD_and
  rw [hand, hm, Bool.and_true]

/-- Every format names the four bits of `OP` (R68). -/
theorem reqField_op_usedBits (op : Nat) : reqField (usedBits op) 52 4 = BitVec.allOnes 4 := by
  unfold usedBits
  split <;> rfl

/-- Zeroing the bits a format does not name keeps `OP`. -/
theorem reqField_op_and_usedBits (w : Req) (op : Nat) : reqField (w &&& usedBits op) 52 4 = reqField w 52 4 :=
  reqField_and_of_allOnes (reqField_op_usedBits op) w

theorem opOf_and_usedBits (w : Req) (op : Nat) : opOf (w &&& usedBits op) = opOf w := by
  rw [opOf_eq_reqField, opOf_eq_reqField, reqField_op_and_usedBits]

/-! ### What each `OP` decodes to (R70 to R79) -/

section
variable {w : Req}

theorem decode_crcinit (h : opOf w = 0) : decode (.request w) = .ok .crcinit := by
  simp only [decode, decodeRequest, ← opOf_eq_reqField, h]

theorem decode_crcupd (h : opOf w = 1) : decode (.request w) = .ok (.crcupd (reqField w 0 8)) := by
  simp only [decode, decodeRequest, ← opOf_eq_reqField, h]

theorem decode_resolve (h : opOf w = 2) :
    decode (.request w) = .ok (.resolve (reqField w 0 16) (variantOfBit (reqBit w 16))) := by
  simp only [decode, decodeRequest, ← opOf_eq_reqField, h]

theorem decode_build (h : opOf w = 3) :
    decode (.request w) =
      .ok (.build (reqField w 0 16) (reqBit w 48) (reqBit w 49) (reqField w 16 16) (reqField w 32 16)) := by
  simp only [decode, decodeRequest, ← opOf_eq_reqField, h]

theorem decode_parse (h : opOf w = 4) : decode (.request w) = .ok (.parse (reqField w 0 4) (reqBit w 4)) := by
  simp only [decode, decodeRequest, ← opOf_eq_reqField, h]

theorem decode_rawrh (h : opOf w = 5) : decode (.request w) = .ok (.rawrh (reqField w 0 16)) := by
  simp only [decode, decodeRequest, ← opOf_eq_reqField, h]

theorem decode_rawt (h : opOf w = 6) : decode (.request w) = .ok (.rawt (reqField w 0 16)) := by
  simp only [decode, decodeRequest, ← opOf_eq_reqField, h]

theorem decode_rxwr (h : opOf w = 7) : decode (.request w) = .ok (.rxwr (reqField w 8 4) (reqField w 0 8)) := by
  simp only [decode, decodeRequest, ← opOf_eq_reqField, h]

theorem decode_txrd (h : opOf w = 8) : decode (.request w) = .ok (.txrd (reqField w 8 4)) := by
  simp only [decode, decodeRequest, ← opOf_eq_reqField, h]

theorem decode_reserved (h : 9 ≤ opOf w) : decode (.request w) = .error (.reservedOp (reqField w 52 4)) := by
  obtain ⟨n, hn⟩ := Nat.exists_eq_add_of_le' h
  simp only [decode, decodeRequest, ← opOf_eq_reqField, hn]

/-- A word decodes to a request exactly where its `OP` is that of one of the nine requests (R79). -/
theorem decode_isRequest_iff : (∃ i, decode (.request w) = .ok i ∧ isRequest i = true) ↔ opOf w ≤ 8 := by
  constructor
  · rintro ⟨i, hi, -⟩
    by_contra hop
    rw [decode_reserved (by omega)] at hi
    cases hi
  · intro hop
    match h : opOf w with
    | 0 => exact ⟨_, decode_crcinit h, rfl⟩
    | 1 => exact ⟨_, decode_crcupd h, rfl⟩
    | 2 => exact ⟨_, decode_resolve h, rfl⟩
    | 3 => exact ⟨_, decode_build h, rfl⟩
    | 4 => exact ⟨_, decode_parse h, rfl⟩
    | 5 => exact ⟨_, decode_rawrh h, rfl⟩
    | 6 => exact ⟨_, decode_rawt h, rfl⟩
    | 7 => exact ⟨_, decode_rxwr h, rfl⟩
    | 8 => exact ⟨_, decode_txrd h, rfl⟩
    | _ + 9 => omega

end

/-! ### The bits a format does not name (R68) -/

/-- A request word decodes as it does with every bit its format does not name put to zero: each format names all the bits of
the fields it reads. -/
theorem decode_and_usedBits {w : Req} {op : Nat} (h : opOf w = op) :
    decode (.request (w &&& usedBits op)) = decode (.request w) := by
  have hop : opOf (w &&& usedBits op) = op := (opOf_and_usedBits w op).trans h
  match op with
  | 0 => rw [decode_crcinit hop, decode_crcinit h]
  | 1 => rw [decode_crcupd hop, decode_crcupd h, reqField_and_of_allOnes rfl]
  | 2 => rw [decode_resolve hop, decode_resolve h, reqField_and_of_allOnes rfl, reqBit_and_of_true rfl]
  | 3 =>
    rw [decode_build hop, decode_build h, reqField_and_of_allOnes rfl, reqBit_and_of_true rfl, reqBit_and_of_true rfl,
      reqField_and_of_allOnes rfl, reqField_and_of_allOnes rfl]
  | 4 => rw [decode_parse hop, decode_parse h, reqField_and_of_allOnes rfl, reqBit_and_of_true rfl]
  | 5 => rw [decode_rawrh hop, decode_rawrh h, reqField_and_of_allOnes rfl]
  | 6 => rw [decode_rawt hop, decode_rawt h, reqField_and_of_allOnes rfl]
  | 7 => rw [decode_rxwr hop, decode_rxwr h, reqField_and_of_allOnes rfl, reqField_and_of_allOnes rfl]
  | 8 => rw [decode_txrd hop, decode_txrd h, reqField_and_of_allOnes rfl]
  | n + 9 =>
    have hle : 9 ≤ opOf w := by omega
    have hle' : 9 ≤ opOf (w &&& usedBits (n + 9)) := by omega
    rw [decode_reserved hle', decode_reserved hle, reqField_op_and_usedBits]

/-- Two request words that agree in the bits the format of one of them names decode alike. -/
theorem decode_congr_usedBits {w w' : Req} (h : w &&& usedBits (opOf w) = w' &&& usedBits (opOf w)) :
    decode (.request w) = decode (.request w') := by
  have hop : opOf w' = opOf w := by rw [← opOf_and_usedBits w' (opOf w), ← h, opOf_and_usedBits]
  calc decode (.request w)
      = decode (.request (w &&& usedBits (opOf w))) := (decode_and_usedBits rfl).symm
    _ = decode (.request (w' &&& usedBits (opOf w))) := by rw [h]
    _ = decode (.request w') := decode_and_usedBits hop

/-! ### Illegal requests (R79, R116, R117) -/

/-- What decodes is executed. -/
theorem present_of_decode {p : Presented} {i : Instr} (h : decode p = .ok i) (s : State) : present p s = exec i s := by
  unfold present
  rw [h]

theorem present_reserved {w : Req} (h : 9 ≤ opOf w) (s : State) :
    present (.request w) s = .next (s.takeFault .illegalRequest) := by
  unfold present
  rw [decode_reserved h]

theorem exec_rxwr_pastEnd {idx : BitVec 4} (h : rxCap ≤ idx.toNat) (b : Byte) (s : State) :
    exec (.rxwr idx b) s = .next (s.takeFault .illegalRequest) := by
  have hfault : requestEffect s (.rxwr idx b) rfl = .error .illegalRequest := if_pos h
  rw [exec_request s (.rxwr idx b) rfl, hfault, State.answer_error]

theorem exec_txrd_pastEnd {idx : BitVec 4} (h : txCap ≤ idx.toNat) (s : State) :
    exec (.txrd idx) s = .next (s.takeFault .illegalRequest) := by
  have hfault : requestEffect s (.txrd idx) rfl = .error .illegalRequest := if_pos h
  rw [exec_request s (.txrd idx) rfl, hfault, State.answer_error]

/-- Settles O2: what each `OP` decodes to, the fault of a reserved `OP` and of an index past the end, and the fields of each
format, which no other bit of the word enters. -/
theorem requestWordsAreTotal : Obligations.RequestWordsAreTotal := by
  refine ⟨fun w s h => present_reserved h s, fun w s h hidx => ?rxwr, fun w s h hidx => ?txrd,
    fun _ => decode_isRequest_iff, fun _ _ => decode_congr_usedBits⟩
  case rxwr =>
    have hcap : rxCap ≤ (reqField w 8 4).toNat := (reqField_toNat w 8 4).symm ▸ hidx
    rw [present_of_decode (decode_rxwr h), exec_rxwr_pastEnd hcap]
    rfl
  case txrd =>
    have hcap : txCap ≤ (reqField w 8 4).toNat := (reqField_toNat w 8 4).symm ▸ hidx
    rw [present_of_decode (decode_txrd h), exec_txrd_pastEnd hcap]
    rfl

end Sys2Proof.Machine
end

section
/-! The two requests of the Checksum Unit, and from them the statements of `40_checksum.md`: `CRCINIT` (R93) and `CRCUPD`
(R94). -/

namespace Sys2Proof.Machine

/-! ### The step of the checksum (R91) -/

theorem crcBit_zero : crcBit 0 = 0 := by decide

/-- The register 0 has no bit that brings the polynomial in. -/
theorem crcBits_zero (n : Nat) : crcBits n 0 = 0 := by
  induction n with
  | zero => rfl
  | succ n ih => rw [crcBits, crcBit_zero, ih]

/-- A byte equal to the register cancels it (R94). -/
theorem crcStep_self (c : Byte) : crcStep c c = 0 := by
  rw [crcStep, BitVec.xor_self]
  exact crcBits_zero 8

/-! ### The operand and the two requests (R93, R94) -/

/-- The decoder's field is the number the spec writes `REQ[lo+n-1:lo]`. -/
theorem reqField_eq_ofNat_reqBits (w : Req) (lo n : Nat) : reqField w lo n = BitVec.ofNat n (reqBits w lo n) := by
  rw [← reqField_toNat, BitVec.ofNat_toNat, BitVec.setWidth_eq]

theorem exec_crcinit (s : State) : exec .crcinit s = .next ({ s with crc := crcInitial } : State).complete :=
  exec_request s .crcinit rfl

theorem exec_crcupd (b : Byte) (s : State) :
    exec (.crcupd b) s = .next ({ s with crc := crcStep s.crc b } : State).complete :=
  exec_request s (.crcupd b) rfl

/-- Settles O8: every word with `OP` 0 decodes to `CRCINIT`, whose completion is the state given, and `crc8` of no bytes is its
initial value. -/
theorem crcinitLoadsTheInitialValue : Obligations.CrcinitLoadsTheInitialValue :=
  ⟨fun _ => decode_crcinit, exec_crcinit, rfl⟩

/-- Settles O9: the decoding and the next state of `CRCUPD`, the requests of the other units leaving `CRC` alone, and the corner
cases and the example of R94. -/
theorem crcupdFeedsOneByte : Obligations.CrcupdFeedsOneByte := by
  refine ⟨fun w h => ?decoding, exec_crcupd, fun i s t h hinit hupd ht => ?others, crcStep_self, rfl, ?worked⟩
  case decoding => rw [decode_crcupd h, reqField_eq_ofNat_reqBits]
  case others =>
    obtain ⟨u, hu, hcrc⟩ := exec_keeps_crc i s h hinit hupd
    obtain rfl : t = u := Host.Outcome.next.inj (ht.symm.trans hu)
    exact hcrc
  case worked => decide

end Sys2Proof.Machine
end

section
/-! `RESOLVE`: what it does for the code of a command and for an unknown code (R102 to R104), and from that the statement of
`41_resolver.md` that it answers the table of R101. -/

namespace Sys2Proof.Machine

/-! ### The operands (R73, R78) -/

/-- The decoder's single bit is the number the spec writes `REQ[i]`. -/
theorem reqBit_eq_decide_reqBits (w : Req) (i : Nat) : reqBit w i = decide (reqBits w i 1 = 1) := by
  rw [reqBit, BitVec.getLsbD, Nat.testBit_eq_decide_div_mod_eq, reqBits, Nat.pow_one]

theorem variantOfBit_reqBit (w : Req) (i : Nat) :
    variantOfBit (reqBit w i) = if reqBits w i 1 = 1 then .variant1 else .variant0 := by
  simp only [reqBit_eq_decide_reqBits, variantOfBit, decide_eq_true_eq]

/-! ### The metadata of a code (R101, R103, R104) -/

/-- The code of a command has the entry of that command. -/
theorem metadata_codeOfCommand (cmd : WireCommand) (var : Variant) :
    metadata (codeOfCommand cmd) var = metadataTable cmd var := by
  rw [metadata, commandOfCode_codeOfCommand]

theorem metadata_of_unknown {code : Word} (h : ∀ cmd, code ≠ codeOfCommand cmd) (var : Variant) :
    metadata code var = .error .invalidCommand := by
  rw [metadata, commandOfCode_eq_none.mpr h]

/-! ### The request (R102) -/

theorem exec_resolve (code : Word) (var : Variant) (s : State) :
    exec (.resolve code var) s = .next (s.answer ((metadata code var).map s.setMetadata)) :=
  exec_request s (.resolve code var) rfl

/-- A pair with an entry completes and writes it into `LEN` and `WAIT`. -/
theorem exec_resolve_of_entry {cmd : WireCommand} {var : Variant} {m : Metadata} (h : metadataTable cmd var = .ok m)
    (s : State) : exec (.resolve (codeOfCommand cmd) var) s = .next (s.setMetadata m).complete := by
  rw [exec_resolve, metadata_codeOfCommand, h]
  rfl

/-- A pair without an entry faults (R103). -/
theorem exec_resolve_of_noEntry {cmd : WireCommand} {var : Variant} {f : BlockFault}
    (h : metadataTable cmd var = .error f) (s : State) :
    exec (.resolve (codeOfCommand cmd) var) s = .next (s.takeFault f) := by
  rw [exec_resolve, metadata_codeOfCommand, h]
  rfl

theorem exec_resolve_of_unknown {code : Word} (h : ∀ cmd, code ≠ codeOfCommand cmd) (var : Variant) (s : State) :
    exec (.resolve code var) s = .next (s.takeFault .invalidCommand) := by
  rw [exec_resolve, metadata_of_unknown h]
  rfl

/-- Settles O15: the fields of a word with `OP` 2, each row of the table as the entry of its command, and the two faults. -/
theorem resolveReturnsTheTableEntry : Obligations.ResolveReturnsTheTableEntry := by
  refine ⟨fun w h => ?decoding, fun s => ⟨fun v => ?heaterOff, fun v => ?selfTest, ?conditioning, ?measure0, ?measure1,
    fun v => ?serial, ?unsupported, fun code v hserial htest hcond hmeasure hoff => ?unknown⟩⟩
  case decoding => rw [decode_resolve h, reqField_eq_ofNat_reqBits, variantOfBit_reqBit]
  case heaterOff => exact exec_resolve_of_entry (cmd := .turnHeaterOff) rfl s
  case selfTest => exact exec_resolve_of_entry (cmd := .executeSelfTest) rfl s
  case conditioning => exact exec_resolve_of_entry (cmd := .executeConditioning) (var := .variant1) rfl s
  case measure0 => exact exec_resolve_of_entry (cmd := .measureRawSignal) (var := .variant0) rfl s
  case measure1 => exact exec_resolve_of_entry (cmd := .measureRawSignal) (var := .variant1) rfl s
  case serial => exact exec_resolve_of_entry (cmd := .getSerialNumber) rfl s
  case unsupported => exact exec_resolve_of_noEntry (cmd := .executeConditioning) (var := .variant0) rfl s
  case unknown =>
    have hnone : ∀ cmd, code ≠ codeOfCommand cmd
      | .getSerialNumber => hserial
      | .executeSelfTest => htest
      | .executeConditioning => hcond
      | .measureRawSignal => hmeasure
      | .turnHeaterOff => hoff
    exact exec_resolve_of_unknown hnone v s

end Sys2Proof.Machine
end

section
/-! The requests of the Frame Codec, and from them the statements of `42_frame_codec.md`: `BUILD` (R111), `PARSE` (R113),
`RXWR` (R116) and `TXRD` (R117). -/

namespace Sys2Proof.Machine

/-! ### The operands (R11, R42) -/

/-- The decoder's single bit, compared as the spec's number `REQ[i]`. -/
theorem reqBit_eq_beq_reqBits (w : Req) (i : Nat) : reqBit w i = (reqBits w i 1 == 1) := by
  rw [reqBit_eq_decide_reqBits, beq_eq_decide]

/-- Two bytes side by side are the word `hi * 256 + lo`. -/
theorem joinBytes_eq_ofNat (hi lo : Byte) : joinBytes hi lo = BitVec.ofNat 16 (hi.toNat * 256 + lo.toNat) := by
  have hvalue : (joinBytes hi lo).toNat = hi.toNat * 256 + lo.toNat := by
    rw [joinBytes, BitVec.toNat_append, ← Nat.shiftLeft_add_eq_or_of_lt lo.isLt, Nat.shiftLeft_eq]
  rw [← hvalue, BitVec.ofNat_toNat, BitVec.setWidth_eq]

/-! ### `TXRD` (R117) -/

theorem exec_txrd_inside {idx : BitVec 4} (h : idx.toNat < txCap) (s : State) :
    exec (.txrd idx) s = .next (s.fetchTx idx.toNat).complete := by
  have heffect : requestEffect s (.txrd idx) rfl = .ok (s.fetchTx idx.toNat) := if_neg (Nat.not_le.mpr h)
  rw [exec_request s (.txrd idx) rfl, heffect, State.answer_ok]

/-- Settles O20: the fields of a word with `OP` 8, the fetch inside `TX` and the fault past its end. -/
theorem txrdFetchesOneByte : Obligations.TxrdFetchesOneByte := by
  refine ⟨fun w h => ?decoding, fun idx s => ⟨fun hin => ?inside, fun hpast => ?past⟩⟩
  case decoding => rw [decode_txrd h, reqField_eq_ofNat_reqBits]
  case inside => exact exec_txrd_inside (Nat.lt_succ_of_le hin) s
  case past => exact exec_txrd_pastEnd hpast s

/-! ### `RXWR` (R116) -/

/-- What the state reads from `RX` after one byte was written. -/
theorem State.rxByte_write (s : State) (j : Nat) (b : Byte) (i : Nat) :
    ({ s with rx := s.rx.write j b } : State).rxByte i = if i = j then b else s.rxByte i := by
  simp only [State.rxByte, Memory.find?_write]
  split <;> rfl

theorem exec_rxwr_inside {idx : BitVec 4} (h : idx.toNat < rxCap) (b : Byte) (s : State) :
    exec (.rxwr idx b) s = .next ({ s with rx := s.rx.write idx.toNat b } : State).complete := by
  have heffect : requestEffect s (.rxwr idx b) rfl = .ok { s with rx := s.rx.write idx.toNat b } :=
    if_neg (Nat.not_le.mpr h)
  rw [exec_request s (.rxwr idx b) rfl, heffect, State.answer_ok]

/-- Settles O19: the fields of a word with `OP` 7, the write inside `RX` and the fault past its end. -/
theorem rxwrStoresOneByte : Obligations.RxwrStoresOneByte := by
  refine ⟨fun w h => ?decoding, fun idx b s => ⟨fun hin => ?inside, fun hpast => ?past⟩⟩
  case decoding => rw [decode_rxwr h, reqField_eq_ofNat_reqBits, reqField_eq_ofNat_reqBits]
  case inside => exact ⟨_, exec_rxwr_inside (Nat.lt_succ_of_le hin) b s, s.rxByte_write idx.toNat b, rfl⟩
  case past => exact exec_rxwr_pastEnd hpast b s

/-! ### `BUILD` (R111) -/

theorem exec_build (code : Word) (rhp tp : Bool) (rh t : Word) (s : State) :
    exec (.build code rhp tp rh t) s = .next (s.buildFrame code (suppliedParams rhp tp rh t)).complete :=
  exec_request s (.build code rhp tp rh t) rfl

/-- Only both presence bits together supply the compensation values (R74, R81). -/
theorem suppliedParams_eq (rhp tp : Bool) (rh t : Word) :
    suppliedParams rhp tp rh t = if rhp = true ∧ tp = true then some (rh, t) else none := by
  simp only [suppliedParams, Bool.and_eq_true]

/-- The frame of `BUILD`: the code, and with both presence bits the two guarded words after it. -/
theorem frameBytes_suppliedParams (code : Word) (rhp tp : Bool) (rh t : Word) :
    frameBytes code (suppliedParams rhp tp rh t) =
      [hiByte code, loByte code] ++ if rhp = true ∧ tp = true then guardedWord rh ++ guardedWord t else [] := by
  rw [suppliedParams_eq]
  split <;> rfl

/-- `TXLEN` after `BUILD`. -/
theorem State.buildFrame_txlen_supplied (s : State) (code : Word) (rhp tp : Bool) (rh t : Word) :
    (s.buildFrame code (suppliedParams rhp tp rh t)).txlen = if rhp = true ∧ tp = true then 8 else 2 := by
  rw [State.buildFrame_txlen, frameBytes_length, suppliedParams_eq]
  split <;> rfl

/-- Settles O17: the fields of a word with `OP` 3, the bytes of the frame over those of `TX`, and its length. -/
theorem buildSerialisesTheFrame : Obligations.BuildSerialisesTheFrame := by
  refine ⟨fun w h => ?decoding, fun code rhp tp rh t s => ⟨_, exec_build code rhp tp rh t s, fun i => ?bytes, ?frame⟩⟩
  case decoding => simp only [decode_build h, reqField_eq_ofNat_reqBits, reqBit_eq_beq_reqBits]
  case bytes =>
    have hbyte := s.buildFrame_txByte code (suppliedParams rhp tp rh t) i
    rw [frameBytes_suppliedParams] at hbyte
    exact hbyte
  case frame =>
    rw [← s.buildFrame_txlen_supplied code rhp tp rh t]
    rfl

/-! ### The groups of a response (R113) -/

/-- What `PARSE` delivers for group `i`: its data word and its match bit. -/
def State.rxEntry (s : State) (i : Nat) : Word × Bool :=
  (s.rxGroup i, decide (s.rxComputed i = s.rxStored i))

/-- What `PARSE` reports of a corrupt group `i` (R114). -/
def State.rxMismatch (s : State) (i : Nat) : BlockFault :=
  .checksumMismatch (BitVec.ofNat 2 i) (s.rxStored i) (s.rxComputed i)

theorem State.groupIntact_rx (s : State) (i : Nat) :
    groupIntact (s.rxByte (3 * i)) (s.rxByte (3 * i + 1)) (s.rxByte (3 * i + 2)) =
      decide (s.rxComputed i = s.rxStored i) :=
  beq_eq_decide ..

/-- One round of the loop on a group that is not verified or intact: it is delivered before those of the rounds after it. -/
theorem decodeGroups_succ_of_intact {s : State} {ver : Bool} {i : Nat} (h : ver = true → s.rxStored i = s.rxComputed i)
    (n : Nat) :
    decodeGroups s.rxByte ver i (n + 1) = (decodeGroups s.rxByte ver (i + 1) n).map (s.rxEntry i :: ·) := by
  have hgo : ¬ (ver && !decide (s.rxComputed i = s.rxStored i)) = true := by
    simpa using fun hver => (h hver).symm
  rw [decodeGroups, s.groupIntact_rx, if_neg hgo, joinBytes_eq_ofNat]
  rfl

/-- One round of the loop on a corrupt group with verification on: it faults. -/
theorem decodeGroups_succ_of_corrupt {s : State} {i : Nat} (h : s.rxStored i ≠ s.rxComputed i) (n : Nat) :
    decodeGroups s.rxByte true i (n + 1) = .error (s.rxMismatch i) := by
  have hstop : (true && !decide (s.rxComputed i = s.rxStored i)) = true := by
    simpa using h.symm
  rw [decodeGroups, s.groupIntact_rx, if_pos hstop]
  rfl

/-- Groups that are not verified or all intact are all delivered. -/
theorem decodeGroups_of_intact {s : State} {ver : Bool} {n i : Nat}
    (h : ver = true → ∀ j, i ≤ j → j < i + n → s.rxStored j = s.rxComputed j) :
    decodeGroups s.rxByte ver i n = .ok ((List.range' i n).map s.rxEntry) := by
  induction n generalizing i with
  | zero => rfl
  | succ n ih =>
    have hhead : ver = true → s.rxStored i = s.rxComputed i := fun hver => h hver i (by omega) (by omega)
    have htail := ih (i := i + 1) fun hver j hlo hhi => h hver j (by omega) (by omega)
    rw [decodeGroups_succ_of_intact hhead, htail]
    rfl

/-- With verification on, the first corrupt group is the one reported. -/
theorem decodeGroups_of_first_corrupt {s : State} {n i k : Nat} (hlo : i ≤ k) (hhi : k < i + n)
    (hbefore : ∀ j, i ≤ j → j < k → s.rxStored j = s.rxComputed j) (hk : s.rxStored k ≠ s.rxComputed k) :
    decodeGroups s.rxByte true i n = .error (s.rxMismatch k) := by
  induction n generalizing i with
  | zero => omega
  | succ n ih =>
    obtain rfl | hlt := Nat.eq_or_lt_of_le hlo
    · exact decodeGroups_succ_of_corrupt hk n
    · have htail := ih (i := i + 1) hlt (by omega) fun j hj => hbefore j (by omega)
      rw [decodeGroups_succ_of_intact fun _ => hbefore i le_rfl hlt, htail]
      rfl

/-! ### `PARSE` (R113, R165, R166) -/

theorem legalLength_iff {elen : BitVec 4} : legalLength elen = true ↔ elen = 0 ∨ elen = 3 ∨ elen = 6 ∨ elen = 9 := by
  simp only [legalLength, Bool.or_eq_true, beq_iff_eq, or_assoc]

/-- Three bytes for each of up to three groups is a legal length (R113). -/
theorem legalLength_of_groups {elen : BitVec 4} {n : Nat} (hn : n ≤ 3) (hlen : elen.toNat = 3 * n) :
    legalLength elen = true := by
  rw [legalLength_iff]
  bv_omega

/-- A response of `n` groups is read group by group from the first (R113). -/
theorem parseResponse_of_groups {elen : BitVec 4} {n : Nat} (hn : n ≤ 3) (hlen : elen.toNat = 3 * n) (rx : Nat → Byte)
    (ver : Bool) : parseResponse rx elen ver = decodeGroups rx ver 0 n := by
  rw [parseResponse, if_pos (legalLength_of_groups hn hlen), hlen, Nat.mul_div_cancel_left n (by decide)]

theorem State.setGroups_d_getElem (s : State) (gs : List (Word × Bool)) (j : Fin 3) :
    (s.setGroups gs).d[j] = (gs[j.val]?.map Prod.fst).getD s.d[j] :=
  Vector.getElem_ofFn j.isLt

/-- The entry for a register index, where the first `n` groups are delivered. -/
theorem State.rxEntries_getElem? (s : State) (n j : Nat) :
    ((List.range' 0 n).map s.rxEntry)[j]? = if j < n then some (s.rxEntry j) else none := by
  rw [List.getElem?_map]
  split
  case isTrue h => rw [List.getElem?_range' h, Option.map_some, Nat.one_mul, Nat.zero_add]
  case isFalse h => rw [List.getElem?_eq_none (by simpa using h), Option.map_none]

theorem exec_parse_illegalLength {elen : BitVec 4} (h : legalLength elen = false) (ver : Bool) (s : State) :
    exec (.parse elen ver) s = .next (s.takeFault .invalidLength) := by
  rw [exec_parse, parseResponse, h]
  rfl

/-- A response that is not verified or whose groups are all intact is stored (R113). -/
theorem exec_parse_of_intact {elen : BitVec 4} {n : Nat} (hn : n ≤ 3) (hlen : elen.toNat = 3 * n) {ver : Bool} {s : State}
    (h : ver = true → ∀ i, i < n → s.rxStored i = s.rxComputed i) :
    exec (.parse elen ver) s = .next (s.setGroups ((List.range' 0 n).map s.rxEntry)).complete := by
  have hgroups : decodeGroups s.rxByte ver 0 n = .ok ((List.range' 0 n).map s.rxEntry) :=
    decodeGroups_of_intact fun hver j _ hj => h hver j (by omega)
  rw [exec_parse, parseResponse_of_groups hn hlen, hgroups]
  rfl

/-- With verification on, the first corrupt group faults (R166). -/
theorem exec_parse_of_first_corrupt {elen : BitVec 4} {n k : Nat} (hn : n ≤ 3) (hlen : elen.toNat = 3 * n) (hk : k < n)
    {s : State} (hbefore : ∀ j, j < k → s.rxStored j = s.rxComputed j) (hcorrupt : s.rxStored k ≠ s.rxComputed k) :
    exec (.parse elen true) s = .next (s.takeFault (s.rxMismatch k)) := by
  have hfault : decodeGroups s.rxByte true 0 n = .error (s.rxMismatch k) :=
    decodeGroups_of_first_corrupt k.zero_le (by omega) (fun j _ => hbefore j) hcorrupt
  rw [exec_parse, parseResponse_of_groups hn hlen, hfault]
  rfl

/-- Settles O18: the fields of a word with `OP` 4, and the three ways `PARSE` ends: an illegal length, all groups delivered, and
the first corrupt group reported. -/
theorem parseSplitsAndChecksTheResponse : Obligations.ParseSplitsAndChecksTheResponse := by
  refine ⟨fun w h => ?decoding, fun elen ver s => ⟨fun h0 h3 h6 h9 => ?illegal, fun n hn hlen hintact => ?delivered,
    fun n k hn hlen hk hver hbefore hcorrupt => ?corrupt⟩⟩
  case decoding => rw [decode_parse h, reqField_eq_ofNat_reqBits, reqBit_eq_beq_reqBits]
  case illegal =>
    have hillegal : ¬ legalLength elen = true := by simp only [legalLength_iff, h0, h3, h6, h9, or_self, not_false_eq_true]
    exact exec_parse_illegalLength (Bool.eq_false_of_not_eq_true hillegal) ver s
  case delivered =>
    refine ⟨_, exec_parse_of_intact hn hlen hintact, fun i => ?d, fun i => ?ok, ?frame⟩
    case d =>
      rw [State.complete_d, State.setGroups_d_getElem, State.rxEntries_getElem?]
      split <;> rfl
    case ok =>
      rw [State.complete_ok, State.setGroups_ok_getElem, State.rxEntries_getElem?]
      split <;> rfl
    case frame =>
      have hngrp : (s.setGroups ((List.range' 0 n).map s.rxEntry)).ngrp = BitVec.ofNat 2 n := by
        rw [State.setGroups_ngrp, List.length_map, List.length_range']
      rw [← hngrp]
      rfl
  case corrupt =>
    subst hver
    exact exec_parse_of_first_corrupt hn hlen hk hbefore hcorrupt

end Sys2Proof.Machine
end

section
/-! The two requests of the Value Transforms, and from them the statements of `43_value_transforms.md`: `RAWRH` (R132) and
`RAWT` (R134). -/

namespace Sys2Proof.Machine

/-! ### The operand (R12, R131) -/

theorem sint16_eq_twosComplement (v : Word) : sint16 v = twosComplement v := by
  have hlt := v.isLt
  rw [sint16, twosComplement, BitVec.toInt_eq_toNat_cond]
  split <;> omega

/-! ### Rounding (R130) -/

/-- The integer division of R130 is the exact product rounded with a half up. -/
theorem roundScaled_eq_floor (k num : Nat) {den : Nat} (hden : den ≠ 0) :
    (roundScaled k num den : ℤ) = ⌊(k : ℚ) * (num / den) + 1 / 2⌋ := by
  have hquotient : (k : ℚ) * (num / den) + 1 / 2 = ((2 * k * num + den : ℕ) : ℚ) / ((2 * den : ℕ) : ℚ) := by
    push_cast
    field_simp
  rw [hquotient, Rat.floor_natCast_div_natCast, roundScaled, Int.natCast_ediv]

theorem roundScaled_le_roundScaled {k m : Nat} (h : k ≤ m) (num den : Nat) :
    roundScaled k num den ≤ roundScaled m num den := by
  unfold roundScaled
  gcongr

/-- Where the largest result of a transform fits `RAW`, each word is the rounded product (R138). -/
theorem ofNat_roundScaled_toNat {k m num den : Nat} (hden : den ≠ 0) (hk : k ≤ m) (hfits : roundScaled m num den < 2 ^ 16) :
    ((BitVec.ofNat 16 (roundScaled k num den)).toNat : ℤ) = ⌊(k : ℚ) * (num / den) + 1 / 2⌋ := by
  have hlt : roundScaled k num den < 2 ^ 16 := (roundScaled_le_roundScaled hk num den).trans_lt hfits
  rw [BitVec.toNat_ofNat, Nat.mod_eq_of_lt hlt, roundScaled_eq_floor k num hden]

/-! ### The two transforms (R132, R134) -/

theorem rawHumidity_of_outside {rh : ℤ} (h : rh < 0 ∨ 100 < rh) : rawHumidity rh = none :=
  if_pos h

theorem rawTemperature_of_outside {t : ℤ} (h : t < -45 ∨ 130 < t) : rawTemperature t = none :=
  if_pos h

/-- On the accepted range the humidity is scaled by `RH_NUM / RH_DEN`; 100 gives the largest result, 6554. -/
theorem rawHumidity_of_inside {rh : ℤ} (hmin : 0 ≤ rh) (hmax : rh ≤ 100) :
    ∃ r : Word, rawHumidity rh = some r ∧ (r.toNat : ℤ) = ⌊(rh : ℚ) * 65535 / 1000 + 1 / 2⌋ := by
  lift rh to ℕ using hmin
  have hinside : ¬ ((rh : ℤ) < rhMin ∨ (rh : ℤ) > rhMax) := by simp only [rhMin, rhMax]; omega
  refine ⟨_, if_neg hinside, ?_⟩
  rw [Int.toNat_natCast, ofNat_roundScaled_toNat (m := 100) (by decide) (by omega) (by decide), mul_div_assoc]
  simp only [rhNum, rhDen, Nat.cast_ofNat, Int.cast_natCast]

/-- On the accepted range the degrees above -45 are scaled by `T_NUM / T_DEN`; 130 gives the largest result, 65535. -/
theorem rawTemperature_of_inside {t : ℤ} (hmin : -45 ≤ t) (hmax : t ≤ 130) :
    ∃ r : Word, rawTemperature t = some r ∧
      (r.toNat : ℤ) = ⌊((t : ℚ) + 45) * (3744857142857 / 10000000000) + 1 / 2⌋ := by
  obtain ⟨k, hk⟩ := Int.eq_ofNat_of_zero_le (show 0 ≤ t + tOffset by simp only [tOffset]; omega)
  have hshift : (t : ℚ) + 45 = k := by exact_mod_cast hk
  have hinside : ¬ (t < tMin ∨ t > tMax) := by simp only [tMin, tMax]; omega
  have hle : k ≤ 175 := by simp only [tOffset] at hk; omega
  refine ⟨_, if_neg hinside, ?_⟩
  rw [hk, Int.toNat_natCast, ofNat_roundScaled_toNat (m := 175) (by decide) hle (by decide), hshift]
  simp only [tNum, tDen, Nat.cast_ofNat]

/-! ### The requests (R132, R134, R136) -/

theorem exec_rawrh (val : Word) (s : State) :
    exec (.rawrh val) s = .next (s.answer (s.setRaw (rawHumidity (twosComplement val)))) := by
  rw [← sint16_eq_twosComplement]
  exact exec_request s (.rawrh val) rfl

theorem exec_rawt (val : Word) (s : State) :
    exec (.rawt val) s = .next (s.answer (s.setRaw (rawTemperature (twosComplement val)))) := by
  rw [← sint16_eq_twosComplement]
  exact exec_request s (.rawt val) rfl

/-- A transform's value is written to `RAW` and `ERR` is cleared. -/
theorem State.answer_setRaw_some (s : State) (r : Word) :
    s.answer (s.setRaw (some r)) = { s with raw := r, err := ⟨0, 0, 0, 0⟩ } := rfl

/-- Without a value the request faults. -/
theorem State.answer_setRaw_none (s : State) : s.answer (s.setRaw none) = { s with err := ⟨1, 0, 0, 0⟩ } := rfl

/-- Settles O24: the operand of a word with `OP` 5, and `RAWRH` inside and outside its range. -/
theorem rawrhScalesTheHumidity : Obligations.RawrhScalesTheHumidity := by
  refine ⟨fun w h => ?decoding, fun val s => ⟨fun hmin hmax => ?inside, fun houtside => ?outside⟩⟩
  case decoding => rw [decode_rawrh h, reqField_eq_ofNat_reqBits]
  case inside =>
    obtain ⟨r, hraw, hr⟩ := rawHumidity_of_inside hmin hmax
    exact ⟨r, hr, by rw [exec_rawrh, hraw, State.answer_setRaw_some]⟩
  case outside => rw [exec_rawrh, rawHumidity_of_outside houtside, State.answer_setRaw_none]

/-- Settles O25: the operand of a word with `OP` 6, and `RAWT` inside and outside its range. -/
theorem rawtScalesTheTemperature : Obligations.RawtScalesTheTemperature := by
  refine ⟨fun w h => ?decoding, fun val s => ⟨fun hmin hmax => ?inside, fun houtside => ?outside⟩⟩
  case decoding => rw [decode_rawt h, reqField_eq_ofNat_reqBits]
  case inside =>
    obtain ⟨r, hraw, hr⟩ := rawTemperature_of_inside hmin hmax
    exact ⟨r, hr, by rw [exec_rawt, hraw, State.answer_setRaw_some]⟩
  case outside => rw [exec_rawt, rawTemperature_of_outside houtside, State.answer_setRaw_none]

end Sys2Proof.Machine
end

section
/-! The operations of the session, and from them the statement of `44_sensor_commands.md` on `get_sensor_id` (R149). -/

namespace Sys2Proof.Machine

/-! ### `get_sensor_id` (R149) -/

/-- Settles O38: `get_sensor_id` may start in every session state, and all it does is return the variant to its caller. -/
theorem sensorIdIsAPureAccessor : Obligations.SensorIdIsAPureAccessor := by
  intro s sess hsession
  calc runOperation .getSensorId s
      = s.withSession true fun sess => s.returns (.sensorId sess.variant) := rfl
    _ = .next (s.returns (.sensorId sess.variant)) := State.withSession_next true _ hsession (.inl rfl)
    _ = .next { s with results := s.results ++ [.sensorId sess.variant] } := rfl

end Sys2Proof.Machine
end

section
/-! The faults of the block (R160): a request word raises a cause exactly where the table says; and from that the statements of
`60_exceptions.md`. -/

namespace Sys2Proof.Machine

/-! ### A fault writes `ERR` alone (R171) -/

/-- Settles O27: a request that completes clears `ERR`, and one that faults has taken the fault in the state before it. -/
theorem faultingRequestsChangeOnlyErr : Obligations.FaultingRequestsChangeOnlyErr := by
  intro i s t h ht hcause
  rw [exec_request s i h] at ht
  obtain rfl := Host.Outcome.next.inj ht
  obtain ⟨u, -, hdone⟩ | ⟨f, -, hfault⟩ := s.answer_cases (requestEffect s i h)
  · rw [hdone] at hcause
    exact absurd rfl hcause
  · rw [hfault]
    rfl

/-! ### The cause a fault records (R31, R160) -/

theorem causeCode_eq_five_iff {f : BlockFault} :
    causeCode f = 5 ↔ ∃ gidx expected computed, f = .checksumMismatch gidx expected computed := by
  cases f <;> simp [causeCode]

theorem causeCode_ne_seven (f : BlockFault) : causeCode f ≠ 7 := by
  cases f <;> simp [causeCode]

/-- Only a checksum mismatch records more than its code. -/
theorem errOfFault_of_causeCode_ne_five {f : BlockFault} (h : causeCode f ≠ 5) : errOfFault f = ⟨causeCode f, 0, 0, 0⟩ := by
  cases f with
  | checksumMismatch gidx expected computed => exact absurd rfl h
  | _ => rfl

/-- The fault `ERR` records, none for the code 0 and the code 7 that is never written (R160). -/
def faultOfErr (e : Err) : Option BlockFault :=
  match e.cause.toNat with
  | 1 => some .outOfRange
  | 2 => some .invalidCommand
  | 3 => some .unsupportedOnVariant
  | 4 => some .invalidLength
  | 5 => some (.checksumMismatch e.gidx e.exp e.cmp)
  | 6 => some .illegalRequest
  | _ => none

theorem faultOfErr_errOfFault (f : BlockFault) : faultOfErr (errOfFault f) = some f := by
  cases f <;> rfl

/-- The code alone names the fault, but for a checksum mismatch. -/
theorem eq_of_causeCode_eq {f g : BlockFault} (hf : causeCode f ≠ 5) (h : causeCode g = causeCode f) : g = f := by
  have herr : errOfFault g = errOfFault f := by
    rw [errOfFault_of_causeCode_ne_five hf, errOfFault_of_causeCode_ne_five (h ▸ hf), h]
  have hread := congrArg faultOfErr herr
  rw [faultOfErr_errOfFault, faultOfErr_errOfFault] at hread
  exact Option.some.inj hread

/-! ### The conditions of the table (R160) -/

/-- The 16-bit operand of a request word: `CODE` of `RESOLVE`, `VAL` of the transforms (R73, R77). -/
def wordOperand (w : Req) : Word := BitVec.ofNat 16 (reqBits w 0 16)

/-- Group `k` is the first of `n` in `RX` whose checksum byte differs from the computed one (R166). -/
def State.FirstCorrupt (s : State) (n k : Nat) : Prop :=
  k < n ∧ (∀ j, j < k → s.rxStored j = s.rxComputed j) ∧ s.rxStored k ≠ s.rxComputed k

/-- The row of the table of R160 for each fault: the request words that raise it in the state `s`. -/
def RaisedBy (w : Req) (s : State) : BlockFault → Prop
  | .outOfRange =>
    opOf w = 5 ∧ (twosComplement (wordOperand w) < 0 ∨ 100 < twosComplement (wordOperand w)) ∨
    opOf w = 6 ∧ (twosComplement (wordOperand w) < -45 ∨ 130 < twosComplement (wordOperand w))
  | .invalidCommand => opOf w = 2 ∧ ∀ cmd, wordOperand w ≠ codeOfCommand cmd
  | .unsupportedOnVariant => opOf w = 2 ∧ wordOperand w = Config.cmdConditioning ∧ reqBits w 16 1 = 0
  | .invalidLength =>
    opOf w = 4 ∧ reqBits w 0 4 ≠ 0 ∧ reqBits w 0 4 ≠ 3 ∧ reqBits w 0 4 ≠ 6 ∧ reqBits w 0 4 ≠ 9
  | .checksumMismatch gidx expected computed =>
    opOf w = 4 ∧ reqBits w 4 1 = 1 ∧ ∃ n k, n ≤ 3 ∧ reqBits w 0 4 = 3 * n ∧ s.FirstCorrupt n k ∧
      BlockFault.checksumMismatch gidx expected computed = s.rxMismatch k
  | .illegalRequest => 9 ≤ opOf w ∨ opOf w = 7 ∧ 8 < reqBits w 8 4 ∨ opOf w = 8 ∧ 7 < reqBits w 8 4

theorem forall_ne_codeOfCommand_iff {code : Word} :
    (∀ cmd, code ≠ codeOfCommand cmd) ↔ code ≠ Config.cmdGetSerial ∧ code ≠ Config.cmdSelfTest ∧
      code ≠ Config.cmdConditioning ∧ code ≠ Config.cmdMeasureRaw ∧ code ≠ Config.cmdHeaterOff := by
  refine ⟨fun h => ⟨h .getSerialNumber, h .executeSelfTest, h .executeConditioning, h .measureRawSignal, h .turnHeaterOff⟩, ?_⟩
  rintro ⟨hserial, htest, hcond, hmeasure, hoff⟩ (_ | _ | _ | _ | _)
  exacts [hserial, htest, hcond, hmeasure, hoff]

/-- Where some group is corrupt, one is the first. -/
theorem State.exists_firstCorrupt {s : State} {n i : Nat} (hi : i < n) (hcorrupt : s.rxStored i ≠ s.rxComputed i) :
    ∃ k, s.FirstCorrupt n k := by
  classical
  have hex : ∃ k, s.rxStored k ≠ s.rxComputed k := ⟨i, hcorrupt⟩
  exact ⟨Nat.find hex, (Nat.find_min' hex hcorrupt).trans_lt hi, fun j hj => not_not.mp (Nat.find_min hex hj),
    Nat.find_spec hex⟩

/-- Conditioning on `Variant0` is the one pair without an entry (R101, R103). -/
theorem metadataTable_cases : ∀ (cmd : WireCommand) (var : Variant),
    (∃ m, metadataTable cmd var = .ok m) ∨ cmd = .executeConditioning ∧ var = .variant0
  | .turnHeaterOff, _ => .inl ⟨_, rfl⟩
  | .executeSelfTest, _ => .inl ⟨_, rfl⟩
  | .executeConditioning, .variant1 => .inl ⟨_, rfl⟩
  | .executeConditioning, .variant0 => .inr ⟨rfl, rfl⟩
  | .measureRawSignal, .variant0 => .inl ⟨_, rfl⟩
  | .measureRawSignal, .variant1 => .inl ⟨_, rfl⟩
  | .getSerialNumber, _ => .inl ⟨_, rfl⟩

theorem variantOfBit_reqBit_eq_variant0_iff {w : Req} {i : Nat} :
    variantOfBit (reqBit w i) = .variant0 ↔ reqBits w i 1 = 0 := by
  have hbit : reqBits w i 1 < 2 := Nat.mod_lt _ (by decide)
  rw [variantOfBit_reqBit]
  split
  case isTrue h => exact iff_of_false nofun (by omega)
  case isFalse h => exact iff_of_true rfl (by omega)

/-! ### A request word with a 16-bit operand (R73, R77) -/

section
variable {w : Req} (s : State)

theorem present_resolve (h : opOf w = 2) :
    present (.request w) s = exec (.resolve (wordOperand w) (variantOfBit (reqBit w 16))) s := by
  rw [present_of_decode (decode_resolve h), reqField_eq_ofNat_reqBits, wordOperand]

theorem present_rawrh (h : opOf w = 5) : present (.request w) s = exec (.rawrh (wordOperand w)) s := by
  rw [present_of_decode (decode_rawrh h), reqField_eq_ofNat_reqBits, wordOperand]

theorem present_rawt (h : opOf w = 6) : present (.request w) s = exec (.rawt (wordOperand w)) s := by
  rw [present_of_decode (decode_rawt h), reqField_eq_ofNat_reqBits, wordOperand]

end

/-! ### A condition of the table holds: the fault is taken -/

/-- A request word takes the fault whose row of the table it meets. -/
theorem present_of_raisedBy {w : Req} {s : State} {f : BlockFault} (h : RaisedBy w s f) :
    present (.request w) s = .next (s.takeFault f) := by
  match f, h with
  | .outOfRange, .inl ⟨hop, houtside⟩ =>
    rw [present_rawrh s hop, exec_rawrh, rawHumidity_of_outside houtside]
    rfl
  | .outOfRange, .inr ⟨hop, houtside⟩ =>
    rw [present_rawt s hop, exec_rawt, rawTemperature_of_outside houtside]
    rfl
  | .invalidCommand, ⟨hop, hunknown⟩ => rw [present_resolve s hop, exec_resolve_of_unknown hunknown]
  | .unsupportedOnVariant, ⟨hop, hcode, hvar⟩ =>
    rw [present_resolve s hop, hcode, variantOfBit_reqBit_eq_variant0_iff.mpr hvar]
    exact exec_resolve_of_noEntry (cmd := .executeConditioning) rfl s
  | .invalidLength, ⟨hop, h0, h3, h6, h9⟩ =>
    have hillegal : ¬ legalLength (reqField w 0 4) = true := by
      rw [legalLength_iff]
      rw [← reqField_toNat] at h0 h3 h6 h9
      bv_omega
    rw [present_of_decode (decode_parse hop), exec_parse_illegalLength (Bool.eq_false_of_not_eq_true hillegal)]
  | .checksumMismatch _ _ _, ⟨hop, hver, n, k, hn, hlen, ⟨hk, hbefore, hcorrupt⟩, hf⟩ =>
    have hverify : reqBit w 4 = true := by rw [reqBit_eq_decide_reqBits, hver, decide_eq_true rfl]
    rw [← reqField_toNat] at hlen
    rw [hf, present_of_decode (decode_parse hop), hverify, exec_parse_of_first_corrupt hn hlen hk hbefore hcorrupt]
  | .illegalRequest, .inl hop => exact present_reserved hop s
  | .illegalRequest, .inr (.inl ⟨hop, hidx⟩) =>
    rw [← reqField_toNat] at hidx
    rw [present_of_decode (decode_rxwr hop), exec_rxwr_pastEnd hidx]
  | .illegalRequest, .inr (.inr ⟨hop, hidx⟩) =>
    rw [← reqField_toNat] at hidx
    rw [present_of_decode (decode_txrd hop), exec_txrd_pastEnd hidx]

/-! ### No condition of the table holds: the request completes -/

section
variable {w : Req} {s : State} (hnone : ∀ f, ¬ RaisedBy w s f)
include hnone

theorem present_resolve_completes (hop : opOf w = 2) : ∃ u, present (.request w) s = .next (State.complete u) := by
  by_cases hunknown : ∀ cmd, wordOperand w ≠ codeOfCommand cmd
  · exact absurd ⟨hop, hunknown⟩ (hnone .invalidCommand)
  · obtain ⟨cmd, hcode⟩ := not_forall_not.mp hunknown
    rw [present_resolve s hop, hcode]
    obtain ⟨m, hentry⟩ | ⟨rfl, hvar⟩ := metadataTable_cases cmd (variantOfBit (reqBit w 16))
    · exact ⟨_, exec_resolve_of_entry hentry s⟩
    · exact absurd ⟨hop, hcode, variantOfBit_reqBit_eq_variant0_iff.mp hvar⟩ (hnone .unsupportedOnVariant)

theorem present_parse_completes (hop : opOf w = 4) : ∃ u, present (.request w) s = .next (State.complete u) := by
  obtain ⟨n, hn, hlen⟩ : ∃ n, n ≤ 3 ∧ reqBits w 0 4 = 3 * n := by
    have hlegal := hnone .invalidLength
    simp only [RaisedBy, hop, true_and] at hlegal
    exact ⟨reqBits w 0 4 / 3, by omega, by omega⟩
  have hintact : reqBit w 4 = true → ∀ i, i < n → s.rxStored i = s.rxComputed i := by
    intro hverify i hi
    by_contra hcorrupt
    obtain ⟨k, hfirst⟩ := s.exists_firstCorrupt hi hcorrupt
    rw [reqBit_eq_decide_reqBits, decide_eq_true_iff] at hverify
    exact hnone (s.rxMismatch k) ⟨hop, hverify, n, k, hn, hlen, hfirst, rfl⟩
  rw [present_of_decode (decode_parse hop)]
  exact ⟨_, exec_parse_of_intact hn (by rw [reqField_toNat, hlen]) hintact⟩

theorem present_rawrh_completes (hop : opOf w = 5) : ∃ u, present (.request w) s = .next (State.complete u) := by
  have hinside := not_or.mp fun houtside => hnone .outOfRange (.inl ⟨hop, houtside⟩)
  obtain ⟨r, hraw, -⟩ := rawHumidity_of_inside (not_lt.mp hinside.1) (not_lt.mp hinside.2)
  rw [present_rawrh s hop, exec_rawrh, hraw]
  exact ⟨_, rfl⟩

theorem present_rawt_completes (hop : opOf w = 6) : ∃ u, present (.request w) s = .next (State.complete u) := by
  have hinside := not_or.mp fun houtside => hnone .outOfRange (.inr ⟨hop, houtside⟩)
  obtain ⟨r, hraw, -⟩ := rawTemperature_of_inside (not_lt.mp hinside.1) (not_lt.mp hinside.2)
  rw [present_rawt s hop, exec_rawt, hraw]
  exact ⟨_, rfl⟩

theorem present_rxwr_completes (hop : opOf w = 7) : ∃ u, present (.request w) s = .next (State.complete u) := by
  have hidx : (reqField w 8 4).toNat < rxCap := by
    rw [reqField_toNat]
    exact Nat.lt_of_not_le fun hpast => hnone .illegalRequest (.inr (.inl ⟨hop, hpast⟩))
  rw [present_of_decode (decode_rxwr hop)]
  exact ⟨_, exec_rxwr_inside hidx _ s⟩

theorem present_txrd_completes (hop : opOf w = 8) : ∃ u, present (.request w) s = .next (State.complete u) := by
  have hidx : (reqField w 8 4).toNat < txCap := by
    rw [reqField_toNat]
    exact Nat.lt_of_not_le fun hpast => hnone .illegalRequest (.inr (.inr ⟨hop, hpast⟩))
  rw [present_of_decode (decode_txrd hop)]
  exact ⟨_, exec_txrd_inside hidx s⟩

/-- A word none of whose conditions holds completes, by its `OP`. -/
theorem present_completes_of_not_raisedBy : ∃ u, present (.request w) s = .next (State.complete u) := by
  match hop : opOf w with
  | 0 => exact ⟨_, (present_of_decode (decode_crcinit hop) s).trans (exec_crcinit s)⟩
  | 1 => exact ⟨_, (present_of_decode (decode_crcupd hop) s).trans (exec_crcupd _ s)⟩
  | 2 => exact present_resolve_completes hnone hop
  | 3 => exact ⟨_, (present_of_decode (decode_build hop) s).trans (exec_build _ _ _ _ _ s)⟩
  | 4 => exact present_parse_completes hnone hop
  | 5 => exact present_rawrh_completes hnone hop
  | 6 => exact present_rawt_completes hnone hop
  | 7 => exact present_rxwr_completes hnone hop
  | 8 => exact present_txrd_completes hnone hop
  | n + 9 => exact absurd (.inl (by omega)) (hnone .illegalRequest)

end

/-! ### `ERR` after a request word -/

section
variable {w : Req} {s t : State} (ht : present (.request w) s = .next t)
include ht

/-- `ERR` holds the fault the table gives, or is clear where it gives none. -/
theorem err_cases_of_present :
    (∃ f, RaisedBy w s f ∧ t.err = errOfFault f) ∨ (∀ f, ¬ RaisedBy w s f) ∧ t.err = Err.clear := by
  by_cases hraised : ∃ f, RaisedBy w s f
  · obtain ⟨f, hf⟩ := hraised
    obtain rfl := Host.Outcome.next.inj (ht.symm.trans (present_of_raisedBy hf))
    exact .inl ⟨f, hf, rfl⟩
  · have hnone := not_exists.mp hraised
    obtain ⟨u, hu⟩ := present_completes_of_not_raisedBy hnone
    obtain rfl := Host.Outcome.next.inj (ht.symm.trans hu)
    exact .inr ⟨hnone, rfl⟩

theorem err_of_raisedBy {f : BlockFault} (h : RaisedBy w s f) : t.err = errOfFault f := by
  obtain rfl := Host.Outcome.next.inj (ht.symm.trans (present_of_raisedBy h))
  rfl

theorem exists_raisedBy_of_cause {c : BitVec 3} (hc : c ≠ 0) (h : t.err.cause = c) :
    ∃ f, RaisedBy w s f ∧ causeCode f = c ∧ t.err = errOfFault f := by
  obtain ⟨f, hf, herr⟩ | ⟨-, herr⟩ := err_cases_of_present ht
  · exact ⟨f, hf, by rw [← h, herr, errOfFault_cause], herr⟩
  · exact absurd (by rw [← h, herr, Err.clear_cause]) hc

/-- For a fault that records its code only, `CAUSE` is that code exactly where the table's row holds. -/
theorem cause_eq_iff_raisedBy {f : BlockFault} (hf : causeCode f ≠ 5) : t.err.cause = causeCode f ↔ RaisedBy w s f := by
  constructor
  · intro h
    obtain ⟨g, hg, hcode, -⟩ := exists_raisedBy_of_cause ht (causeCode_ne_zero f) h
    exact eq_of_causeCode_eq hf hcode ▸ hg
  · intro h
    rw [err_of_raisedBy ht h, errOfFault_cause]

/-- A checksum mismatch is that of the first corrupt group of a verified response (R166). -/
theorem firstCorrupt_of_cause_five (h : t.err.cause = 5) :
    opOf w = 4 ∧ reqBits w 4 1 = 1 ∧
      ∃ n k, n ≤ 3 ∧ reqBits w 0 4 = 3 * n ∧ s.FirstCorrupt n k ∧ t.err = errOfFault (s.rxMismatch k) := by
  obtain ⟨f, hf, hcode, herr⟩ := exists_raisedBy_of_cause ht (by decide) h
  obtain ⟨gidx, expected, computed, rfl⟩ := causeCode_eq_five_iff.mp hcode
  obtain ⟨hop, hver, n, k, hn, hlen, hfirst, hfault⟩ := hf
  exact ⟨hop, hver, n, k, hn, hlen, hfirst, hfault ▸ herr⟩

theorem cause_eq_five_iff : t.err.cause = 5 ↔ opOf w = 4 ∧ reqBits w 4 1 = 1 ∧
    ∃ n i, n ≤ 3 ∧ reqBits w 0 4 = 3 * n ∧ i < n ∧ s.rxStored i ≠ s.rxComputed i := by
  constructor
  · intro h
    obtain ⟨hop, hver, n, k, hn, hlen, ⟨hk, -, hcorrupt⟩, -⟩ := firstCorrupt_of_cause_five ht h
    exact ⟨hop, hver, n, k, hn, hlen, hk, hcorrupt⟩
  · rintro ⟨hop, hver, n, i, hn, hlen, hi, hcorrupt⟩
    obtain ⟨k, hfirst⟩ := s.exists_firstCorrupt hi hcorrupt
    have hraised : RaisedBy w s (s.rxMismatch k) := ⟨hop, hver, n, k, hn, hlen, hfirst, rfl⟩
    rw [err_of_raisedBy ht hraised]
    rfl

/-- Any cause but a checksum mismatch leaves the other three fields of `ERR` zero (R31). -/
theorem err_fields_zero_of_cause_ne_five (h : t.err.cause ≠ 5) : t.err.gidx = 0 ∧ t.err.exp = 0 ∧ t.err.cmp = 0 := by
  obtain ⟨f, -, herr⟩ | ⟨-, herr⟩ := err_cases_of_present ht
  · rw [herr, errOfFault_cause] at h
    rw [herr, errOfFault_of_causeCode_ne_five h]
    exact ⟨rfl, rfl, rfl⟩
  · rw [herr]
    exact ⟨rfl, rfl, rfl⟩

end

/-- Settles O28: each cause by its row of the table, and what `ERR` records beside it. -/
theorem eachCauseIsRaisedWhereTheTableSays : Obligations.EachCauseIsRaisedWhereTheTableSays := by
  intro w s t ht
  refine ⟨cause_eq_iff_raisedBy ht (f := .outOfRange) (by decide), ?invalidCommand,
    cause_eq_iff_raisedBy ht (f := .unsupportedOnVariant) (by decide),
    cause_eq_iff_raisedBy ht (f := .invalidLength) (by decide), cause_eq_five_iff ht,
    cause_eq_iff_raisedBy ht (f := .illegalRequest) (by decide), ?neverSeven, err_fields_zero_of_cause_ne_five ht, ?mismatch⟩
  case invalidCommand =>
    exact (cause_eq_iff_raisedBy ht (f := .invalidCommand) (by decide)).trans
      (and_congr_right' forall_ne_codeOfCommand_iff)
  case neverSeven =>
    intro h
    obtain ⟨f, -, hcode, -⟩ := exists_raisedBy_of_cause ht (by decide) h
    exact causeCode_ne_seven f hcode
  case mismatch =>
    intro h
    obtain ⟨-, -, n, k, -, hlen, ⟨hk, hbefore, hcorrupt⟩, herr⟩ := firstCorrupt_of_cause_five ht h
    rw [herr]
    exact ⟨k, rfl, by omega, rfl, rfl, hcorrupt, hbefore⟩

end Sys2Proof.Machine
end

section
/-! The encoder and the decoder read each other back (R60 to R78), and from that the statements of `30_encoding.md` on encoding
and of `20_memory.md` on what a step runs. -/

namespace Sys2Proof.Machine

/-! ### The fields of a word the encoder writes (R68) -/

theorem reqWord_toNat {op n : Nat} (hop : op < 16) (hn : n < 2 ^ 52) : (reqWord op n).toNat = op * 2 ^ 52 + n := by
  rw [reqWord, BitVec.toNat_ofNat, Nat.mod_eq_of_lt (by omega)]

section
variable {op n : Nat} (hop : op < 16) (hn : n < 2 ^ 52)
include hop hn

theorem opOf_reqWord : opOf (reqWord op n) = op := by
  rw [opOf, reqBits, reqWord_toNat hop hn]
  omega

/-- A field below `OP` is the same field of the number the operands spell. -/
theorem reqBits_reqWord {lo k : Nat} (hk : lo + k ≤ 52) : reqBits (reqWord op n) lo k = n / 2 ^ lo % 2 ^ k := by
  rw [reqBits, reqWord_toNat hop hn, Nat.mul_comm]
  apply Nat.eq_of_testBit_eq
  intro j
  simp only [Nat.testBit_mod_two_pow, Nat.testBit_div_two_pow, Nat.testBit_two_pow_mul_add _ hn]
  by_cases hj : j < k
  · rw [if_pos (by omega)]
  · simp only [hj, decide_false, Bool.false_and]

theorem reqField_reqWord {lo k : Nat} (hk : lo + k ≤ 52) {v : BitVec k} (hv : n / 2 ^ lo % 2 ^ k = v.toNat) :
    reqField (reqWord op n) lo k = v := by
  apply BitVec.eq_of_toNat_eq
  rw [reqField_toNat, reqBits_reqWord hop hn hk, hv]

theorem reqBit_reqWord {i : Nat} (hi : i + 1 ≤ 52) {b : Bool} (hb : n / 2 ^ i % 2 ^ 1 = b.toNat) :
    reqBit (reqWord op n) i = b := by
  rw [reqBit_eq_beq_reqBits, reqBits_reqWord hop hn hi, hb]
  cases b <;> rfl

end

theorem variantOfBit_bitOfVariant (v : Variant) : variantOfBit (bitOfVariant v) = v := by
  cases v <;> rfl

theorem bitOfVariant_variantOfBit (b : Bool) : bitOfVariant (variantOfBit b) = b := by
  cases b <;> rfl

/-! ### The frames of the five commands (R61, R62) -/

/-- A bare frame with a command's code decodes as that command's bare frame. -/
theorem decode_frameBytes_none (cmd : WireCommand) :
    decode (.frame (frameBytes (codeOfCommand cmd) none)) = decodeBare cmd := by
  simp only [decode, decodeFrame, frameBytes, joinBytes_split, commandOfCode_codeOfCommand]

/-- A parameter frame with a command's code decodes as that command's parameter frame: its checksums are right. -/
theorem decode_frameBytes_some (cmd : WireCommand) (rh t : Word) :
    decode (.frame (frameBytes (codeOfCommand cmd) (some (rh, t)))) = decodeParam cmd rh t := by
  simp only [decode, decodeFrame, frameBytes, guardedWord, List.cons_append, List.nil_append, joinBytes_split,
    commandOfCode_codeOfCommand, and_self, if_true]

/-- Settles O1: a request word's fields are the operands the encoder put there, and a frame's code and words those of its
command. -/
theorem decodeReadsBackEncode : Obligations.DecodeReadsBackEncode
  | .crcinit => decode_crcinit (opOf_reqWord (by decide) (by decide))
  | .crcupd byte => by
    have hn : byte.toNat < 2 ^ 52 := by omega
    rw [encode, decode_crcupd (opOf_reqWord (by decide) hn),
      reqField_reqWord (v := byte) (by decide) hn (by decide) (by omega)]
  | .resolve code var => by
    have hvar : (bitOfVariant var).toNat < 2 := Bool.toNat_lt _
    have hn : (bitOfVariant var).toNat * 2 ^ 16 + code.toNat < 2 ^ 52 := by omega
    rw [encode, decode_resolve (opOf_reqWord (by decide) hn),
      reqField_reqWord (v := code) (by decide) hn (by decide) (by omega),
      reqBit_reqWord (b := bitOfVariant var) (by decide) hn (by decide) (by omega), variantOfBit_bitOfVariant]
  | .build code rhp tp rhraw traw => by
    have hrhp : rhp.toNat < 2 := Bool.toNat_lt _
    have htp : tp.toNat < 2 := Bool.toNat_lt _
    have hn : tp.toNat * 2 ^ 49 + rhp.toNat * 2 ^ 48 + traw.toNat * 2 ^ 32 + rhraw.toNat * 2 ^ 16 + code.toNat < 2 ^ 52 := by
      omega
    rw [encode, decode_build (opOf_reqWord (by decide) hn),
      reqField_reqWord (v := code) (by decide) hn (by decide) (by omega),
      reqBit_reqWord (b := rhp) (by decide) hn (by decide) (by omega),
      reqBit_reqWord (b := tp) (by decide) hn (by decide) (by omega),
      reqField_reqWord (v := rhraw) (by decide) hn (by decide) (by omega),
      reqField_reqWord (v := traw) (by decide) hn (by decide) (by omega)]
  | .parse elen ver => by
    have hver : ver.toNat < 2 := Bool.toNat_lt _
    have hn : ver.toNat * 2 ^ 4 + elen.toNat < 2 ^ 52 := by omega
    rw [encode, decode_parse (opOf_reqWord (by decide) hn),
      reqField_reqWord (v := elen) (by decide) hn (by decide) (by omega),
      reqBit_reqWord (b := ver) (by decide) hn (by decide) (by omega)]
  | .rawrh val => by
    have hn : val.toNat < 2 ^ 52 := by omega
    rw [encode, decode_rawrh (opOf_reqWord (by decide) hn),
      reqField_reqWord (v := val) (by decide) hn (by decide) (by omega)]
  | .rawt val => by
    have hn : val.toNat < 2 ^ 52 := by omega
    rw [encode, decode_rawt (opOf_reqWord (by decide) hn),
      reqField_reqWord (v := val) (by decide) hn (by decide) (by omega)]
  | .rxwr idx byte => by
    have hn : idx.toNat * 2 ^ 8 + byte.toNat < 2 ^ 52 := by omega
    rw [encode, decode_rxwr (opOf_reqWord (by decide) hn),
      reqField_reqWord (v := idx) (by decide) hn (by decide) (by omega),
      reqField_reqWord (v := byte) (by decide) hn (by decide) (by omega)]
  | .txrd idx => by
    have hn : idx.toNat * 2 ^ 8 < 2 ^ 52 := by omega
    rw [encode, decode_txrd (opOf_reqWord (by decide) hn),
      reqField_reqWord (v := idx) (by decide) hn (by decide) (by omega)]
  | .getSerialNumber => decode_frameBytes_none .getSerialNumber
  | .executeSelfTest => decode_frameBytes_none .executeSelfTest
  | .executeConditioning rhraw traw => decode_frameBytes_some .executeConditioning rhraw traw
  | .measureRawSignal rhraw traw => decode_frameBytes_some .measureRawSignal rhraw traw
  | .turnHeaterOff => decode_frameBytes_none .turnHeaterOff

/-! ### The encoder writes back what was decoded -/

/-- A bit field that the mask has not is zero. -/
theorem reqField_and_of_zero {m : Req} {lo n : Nat} (hm : reqField m lo n = 0) (w : Req) : reqField (w &&& m) lo n = 0 := by
  have hand : reqField (w &&& m) lo n = reqField w lo n &&& reqField m lo n := BitVec.extractLsb'_and
  rw [hand, hm]
  exact BitVec.and_zero

/-- A request word all of whose ignored bits are zero has zero in every field that its format does not name. -/
theorem reqBits_eq_zero_of_unused {w : Req} {op lo n : Nat} (hw : w &&& usedBits op = w)
    (hm : reqField (usedBits op) lo n = 0) : reqBits w lo n = 0 := by
  rw [← reqField_toNat, ← hw, reqField_and_of_zero hm]
  rfl

theorem toNat_reqBit (w : Req) (i : Nat) : (reqBit w i).toNat = reqBits w i 1 := by
  have hbit : reqBits w i 1 < 2 := Nat.mod_lt _ (by decide)
  rw [reqBit_eq_beq_reqBits]
  interval_cases reqBits w i 1 <;> rfl

/-- A request word is `OP` and the number its other bits spell. -/
theorem reqWord_eq {w : Req} {op n : Nat} (hop : opOf w = op) (hn : n = w.toNat % 2 ^ 52) : reqWord op n = w := by
  have hw := w.isLt
  have hrange : op < 16 := hop ▸ Nat.mod_lt _ (by decide)
  apply BitVec.eq_of_toNat_eq
  rw [reqWord_toNat hrange (by omega), hn, ← hop, opOf, reqBits]
  omega

/-- The encoder writes back what it reads from a request word whose ignored bits are zero. -/
theorem encode_of_decode_canonical {w : Req} {op : Nat} (hop : opOf w = op) (hw : w &&& usedBits op = w) {i : Instr}
    (h : decode (.request w) = .ok i) : encode i = .request w := by
  match op with
  | 0 =>
    obtain rfl := Except.ok.inj ((decode_crcinit hop).symm.trans h)
    have hunused := reqBits_eq_zero_of_unused (lo := 0) (n := 52) hw rfl
    refine congrArg Presented.request (reqWord_eq hop ?_)
    simp only [reqBits] at hunused
    omega
  | 1 =>
    obtain rfl := Except.ok.inj ((decode_crcupd hop).symm.trans h)
    have hunused := reqBits_eq_zero_of_unused (lo := 8) (n := 44) hw rfl
    refine congrArg Presented.request (reqWord_eq hop ?_)
    simp only [reqField_toNat, reqBits] at hunused ⊢
    omega
  | 2 =>
    obtain rfl := Except.ok.inj ((decode_resolve hop).symm.trans h)
    have hunused := reqBits_eq_zero_of_unused (lo := 17) (n := 35) hw rfl
    refine congrArg Presented.request (reqWord_eq hop ?_)
    simp only [reqField_toNat, bitOfVariant_variantOfBit, toNat_reqBit, reqBits] at hunused ⊢
    omega
  | 3 =>
    obtain rfl := Except.ok.inj ((decode_build hop).symm.trans h)
    have hunused := reqBits_eq_zero_of_unused (lo := 50) (n := 2) hw rfl
    refine congrArg Presented.request (reqWord_eq hop ?_)
    simp only [reqField_toNat, toNat_reqBit, reqBits] at hunused ⊢
    omega
  | 4 =>
    obtain rfl := Except.ok.inj ((decode_parse hop).symm.trans h)
    have hunused := reqBits_eq_zero_of_unused (lo := 5) (n := 47) hw rfl
    refine congrArg Presented.request (reqWord_eq hop ?_)
    simp only [reqField_toNat, toNat_reqBit, reqBits] at hunused ⊢
    omega
  | 5 =>
    obtain rfl := Except.ok.inj ((decode_rawrh hop).symm.trans h)
    have hunused := reqBits_eq_zero_of_unused (lo := 16) (n := 36) hw rfl
    refine congrArg Presented.request (reqWord_eq hop ?_)
    simp only [reqField_toNat, reqBits] at hunused ⊢
    omega
  | 6 =>
    obtain rfl := Except.ok.inj ((decode_rawt hop).symm.trans h)
    have hunused := reqBits_eq_zero_of_unused (lo := 16) (n := 36) hw rfl
    refine congrArg Presented.request (reqWord_eq hop ?_)
    simp only [reqField_toNat, reqBits] at hunused ⊢
    omega
  | 7 =>
    obtain rfl := Except.ok.inj ((decode_rxwr hop).symm.trans h)
    have hunused := reqBits_eq_zero_of_unused (lo := 12) (n := 40) hw rfl
    refine congrArg Presented.request (reqWord_eq hop ?_)
    simp only [reqField_toNat, reqBits] at hunused ⊢
    omega
  | 8 =>
    obtain rfl := Except.ok.inj ((decode_txrd hop).symm.trans h)
    have hunused := reqBits_eq_zero_of_unused (lo := 12) (n := 40) hw rfl
    have hlow := reqBits_eq_zero_of_unused (lo := 0) (n := 8) hw rfl
    refine congrArg Presented.request (reqWord_eq hop ?_)
    simp only [reqField_toNat, reqBits] at hunused hlow ⊢
    omega
  | op + 9 =>
    rw [decode_reserved (by omega)] at h
    cases h

theorem encode_of_decodeBare {cmd : WireCommand} {i : Instr} (h : decodeBare cmd = .ok i) :
    encode i = .frame (frameBytes (codeOfCommand cmd) none) := by
  cases cmd <;> cases h <;> rfl

theorem encode_of_decodeParam {cmd : WireCommand} {rh t : Word} {i : Instr} (h : decodeParam cmd rh t = .ok i) :
    encode i = .frame (frameBytes (codeOfCommand cmd) (some (rh, t))) := by
  cases cmd <;> cases h <;> rfl

/-- The encoder writes back a frame that decodes, byte for byte. -/
theorem encode_of_decodeFrame {bytes : List Byte} {i : Instr} (h : decodeFrame bytes = .ok i) : encode i = .frame bytes := by
  unfold decodeFrame at h
  split at h
  case h_1 ch cl =>
    split at h
    case h_1 => cases h
    case h_2 cmd hcmd =>
      rw [encode_of_decodeBare h, ← codeOfCommand_of_commandOfCode hcmd]
      simp only [frameBytes, hiByte_join, loByte_join]
  case h_2 ch cl rh rl rc th tl tc =>
    split at h
    case h_1 => cases h
    case h_2 cmd hcmd =>
      split at h
      case isTrue hsum =>
        obtain ⟨rfl, rfl⟩ := hsum
        rw [encode_of_decodeParam h, ← codeOfCommand_of_commandOfCode hcmd]
        simp only [frameBytes, guardedWord, hiByte_join, loByte_join, List.cons_append, List.nil_append]
      case isFalse => cases h
  case h_3 => cases h

/-- Settles O3: a word decodes as it does with its ignored bits zero, and that word is written back; a frame that decodes is the
frame of its command. -/
theorem encodeWritesBackDecode : Obligations.EncodeWritesBackDecode := by
  refine ⟨fun w i h => ?_, fun bytes i h => encode_of_decodeFrame h⟩
  have hidem : w &&& usedBits (opOf w) &&& usedBits (opOf w) = w &&& usedBits (opOf w) := by
    rw [BitVec.and_assoc, BitVec.and_self]
  exact encode_of_decode_canonical (opOf_and_usedBits w _) hidem ((decode_and_usedBits rfl).trans h)

/-! ### Frames given as numbers (log 15) -/

/-- The last byte of a frame stands lowest. -/
theorem bytesOfFrame_succ (n w : Nat) : bytesOfFrame (n + 1) w = bytesOfFrame n (w / 256) ++ [BitVec.ofNat 8 w] := by
  have hinit : ∀ i ∈ List.range n, (BitVec.ofNat 8 (w >>> (8 * (n + 1 - 1 - i))) : Byte) =
      BitVec.ofNat 8 ((w / 256) >>> (8 * (n - 1 - i))) := by
    intro i hi
    have hlt := List.mem_range.mp hi
    have hexp : 8 * (n + 1 - 1 - i) = 8 + 8 * (n - 1 - i) := by omega
    rw [hexp, Nat.shiftRight_add, Nat.shiftRight_eq_div_pow w 8]
  have hlast : n + 1 - 1 - n = 0 := by omega
  rw [bytesOfFrame, List.range_succ, List.map_append, List.map_congr_left hinit, List.map_singleton, hlast, Nat.mul_zero,
    Nat.shiftRight_zero]
  rfl

theorem bitsOf_frame_append (bytes : List Byte) (b : Byte) :
    bitsOf (.frame (bytes ++ [b])) = bitsOf (.frame bytes) * 256 + b.toNat :=
  List.foldl_append

/-- The bytes of a frame are read back from the number they spell. -/
theorem bytesOfFrame_bitsOf (bytes : List Byte) : bytesOfFrame bytes.length (bitsOf (.frame bytes)) = bytes := by
  induction bytes using List.reverseRecOn with
  | nil => rfl
  | append_singleton bytes b ih =>
    have hlow : (BitVec.ofNat 8 (bitsOf (.frame bytes) * 256 + b.toNat) : Byte) = b := by
      apply BitVec.eq_of_toNat_eq
      rw [BitVec.toNat_ofNat]
      omega
    have hhigh : (bitsOf (.frame bytes) * 256 + b.toNat) / 256 = bitsOf (.frame bytes) := by omega
    rw [List.length_append, List.length_singleton, bytesOfFrame_succ, bitsOf_frame_append, hlow, hhigh, ih]

/-- What is presented is read back from its bits, but for a frame as wide as a request word. -/
theorem presentedOfBits_bitsOf : ∀ p : Presented, (∀ bytes, p = .frame bytes → bytes.length ≠ 7) →
    presentedOfBits (widthOf p) (bitsOf p) = p
  | .request w, _ => by
    rw [widthOf, bitsOf, presentedOfBits, if_pos rfl, BitVec.ofNat_toNat, BitVec.setWidth_eq]
  | .frame bytes, h => by
    have hwidth : 8 * bytes.length ≠ 56 := fun hlen => h bytes rfl (by omega)
    rw [widthOf, presentedOfBits, if_neg hwidth, Nat.mul_div_cancel_left _ (by decide), bytesOfFrame_bitsOf]

/-- No instruction is presented in a frame of seven bytes. -/
theorem length_ne_seven_of_encode {i : Instr} {bytes : List Byte} (h : encode i = .frame bytes) : bytes.length ≠ 7 := by
  cases i <;> cases h <;> simp [frameBytes_length]

theorem presentedOfBits_encode (i : Instr) : presentedOfBits (widthOf (encode i)) (bitsOf (encode i)) = encode i :=
  presentedOfBits_bitsOf _ fun _ => length_ne_seven_of_encode

theorem decodeTableWord_encode (i : Instr) : decodeTableWord (widthOf (encode i)) (bitsOf (encode i)) = some i := by
  rw [decodeTableWord, presentedOfBits_encode, decodeReadsBackEncode i]
  rfl

/-! ### What a step runs (R14, R49) -/

/-- A step runs the instruction that the next presentation decodes to. -/
theorem step_of_decode {s : State} {p : Presented} {rest : List Move} {i : Instr} (hinbox : s.inbox = .present p :: rest)
    (h : decode p = .ok i) : step s = exec i { s with inbox := rest } :=
  (step_cons hinbox).trans (present_of_decode h _)

/-- Settles O5: the step takes the move and presents it, and what decodes is executed. -/
theorem stepRunsTheDecodedInstruction : Obligations.StepRunsTheDecodedInstruction :=
  fun _ _ _ _ => step_of_decode

/-- Settles O6: the bits of an instruction present its encoding, which decodes to it (O1), and a step runs what was decoded. -/
theorem presentedBitsRunTheirInstruction : Obligations.PresentedBitsRunTheirInstruction := by
  refine fun i s => ⟨decodeTableWord_encode i, ?_⟩
  have hinbox : (s.withFetchWord (widthOf (encode i)) (bitsOf (encode i))).inbox = .present (encode i) :: s.inbox := by
    rw [State.withFetchWord, presentedOfBits_encode]
  exact step_of_decode hinbox (decodeReadsBackEncode i)

/-! ### The words written out (R84) -/

theorem toNat_hiByte_loByte (v : Word) : (hiByte v).toNat * 256 + (loByte v).toNat = v.toNat := by
  have hv := v.isLt
  simp only [hiByte, loByte, BitVec.extractLsb'_toNat, Nat.shiftRight_eq_div_pow]
  omega

theorem bitsOf_frameBytes_none (code : Word) : bitsOf (.frame (frameBytes code none)) = code.toNat := by
  rw [← toNat_hiByte_loByte code]
  simp only [bitsOf, frameBytes, List.foldl_cons, List.foldl_nil, Nat.zero_mul, Nat.zero_add]

/-- The parameter frame of section 6, with its two checksums, as a number. -/
theorem bitsOf_frameBytes_example (code : Word) :
    bitsOf (.frame (frameBytes code (some (0x0CCD, 0x6666)))) = code.toNat * 2 ^ 48 + 0x0CCD3E666693 := by
  have hrh : guardedWord 0x0CCD = [0x0C, 0xCD, 0x3E] := by decide +kernel
  have ht : guardedWord 0x6666 = [0x66, 0x66, 0x93] := by decide +kernel
  rw [← toNat_hiByte_loByte code]
  simp only [bitsOf, frameBytes, hrh, ht, List.cons_append, List.nil_append, List.foldl_cons, List.foldl_nil,
    BitVec.reduceToNat]
  omega

/-- Settles O4: the nine words by evaluation, the two frames as the bits of their encodings. -/
theorem writtenOutWordsDecode : Obligations.WrittenOutWordsDecode := by
  refine ⟨by decide, by decide, by decide, by decide, by decide, by decide, by decide, by decide, by decide, ?bare, ?param⟩
  case bare =>
    rw [← bitsOf_frameBytes_none]
    exact decodeTableWord_encode .getSerialNumber
  case param =>
    rw [← bitsOf_frameBytes_example]
    exact decodeTableWord_encode (.measureRawSignal 0x0CCD 0x6666)

end Sys2Proof.Machine
end

section
/-! The algebra of the checksum (R91): each round is linear over the two-element field and loses nothing, and a round is one step
of the long division by x^8 + x^5 + x^4 + 1; from that the facts b to f of `40_checksum.md` section 1. -/

namespace Sys2Proof.Machine

/-! ### The rounds are linear -/

theorem crcBit_xor (a b : Byte) : crcBit (a ^^^ b) = crcBit a ^^^ crcBit b := by
  have hshift : (a ^^^ b) <<< 1 = a <<< 1 ^^^ b <<< 1 := BitVec.shiftLeft_xor_distrib a b 1
  unfold crcBit
  rw [BitVec.msb_xor, hshift]
  match a.msb, b.msb with
  | false, false => rfl
  | false, true => exact BitVec.xor_assoc ..
  | true, false =>
    change a <<< 1 ^^^ b <<< 1 ^^^ crcPoly = a <<< 1 ^^^ crcPoly ^^^ b <<< 1
    ac_rfl
  | true, true =>
    have hcancel : a <<< 1 ^^^ crcPoly ^^^ (b <<< 1 ^^^ crcPoly) = a <<< 1 ^^^ b <<< 1 ^^^ (crcPoly ^^^ crcPoly) := by
      ac_rfl
    rw [BitVec.xor_self, BitVec.xor_zero] at hcancel
    exact hcancel.symm

theorem crcBits_xor (n : Nat) (a b : Byte) : crcBits n (a ^^^ b) = crcBits n a ^^^ crcBits n b := by
  induction n generalizing a b with
  | zero => rfl
  | succ n ih => rw [crcBits, crcBit_xor, ih]; rfl

/-! ### The rounds lose nothing -/

/-- The polynomial ends in 1, so a round that brings it in does not end in 0. -/
theorem crcBit_eq_zero : ∀ {c : Byte}, crcBit c = 0 → c = 0 := by
  decide

theorem crcBits_eq_zero {n : Nat} {c : Byte} (h : crcBits n c = 0) : c = 0 := by
  induction n generalizing c with
  | zero => exact h
  | succ n ih => exact crcBit_eq_zero (ih h)

theorem crcBits_injective (n : Nat) : Function.Injective (crcBits n) := by
  intro a b h
  have hdiff : crcBits n (a ^^^ b) = 0 := by rw [crcBits_xor, h, BitVec.xor_self]; rfl
  exact BitVec.xor_eq_zero_iff.mp (crcBits_eq_zero hdiff)

theorem crcBits_bijective (n : Nat) : Function.Bijective (crcBits n) :=
  Finite.injective_iff_bijective.mp (crcBits_injective n)

theorem xor_left_bijective (c : Byte) : Function.Bijective (c ^^^ ·) :=
  Function.Involutive.bijective fun b => by rw [← BitVec.xor_assoc, BitVec.xor_self, BitVec.zero_xor]

theorem crcStep_bijective (c : Byte) : Function.Bijective (crcStep c) :=
  (crcBits_bijective 8).comp (xor_left_bijective c)

theorem crcStep_comm (c b : Byte) : crcStep c b = crcStep b c := by
  rw [crcStep, crcStep, BitVec.xor_comm]

theorem crc8_append (as bs : List Byte) : crc8 (as ++ bs) = crcFrom (crc8 as) bs :=
  crcFrom_append _ as bs

/-- Settles O12: `crc_step` is the rounds of the exclusive or, and the rounds are a bijection. -/
theorem checksumStepIsABijection : Obligations.ChecksumStepIsABijection := by
  refine ⟨fun c b => ?_, crcStep_bijective, fun b => ?_, fun bytes => ?_⟩
  · exact congrArg (crcBits 8) BitVec.zero_xor.symm
  · have hswap : (fun c => crcStep c b) = crcStep b := funext fun c => crcStep_comm c b
    rw [hswap]
    exact crcStep_bijective b
  · rw [crc8_append]
    exact crcStep_self _

/-! ### The pairs of one checksum value -/

theorem crc8_pair (hi lo : Byte) : crc8 [hi, lo] = crcStep (crcStep crcInitial hi) lo := rfl

/-- Settles O13: for each first byte the step has exactly one second byte that gives the value. -/
theorem eachChecksumHas256Pairs : Obligations.EachChecksumHas256Pairs := by
  intro v
  choose lo hlo using fun hi => (crcStep_bijective (crcStep crcInitial hi)).surjective v
  refine ⟨fun hi => (hi, lo hi), fun a b h => congrArg Prod.fst h, fun ⟨hi, b⟩ => ⟨fun h => ⟨hi, ?_⟩, ?_⟩⟩
  · have hsame : lo hi = b := (crcStep_bijective (crcStep crcInitial hi)).injective ((hlo hi).trans h.symm)
    exact congrArg (Prod.mk hi) hsame
  · rintro ⟨x, h⟩
    obtain ⟨rfl, rfl⟩ := Prod.mk.inj h
    exact hlo x

/-! ### Errors in a group (R64) -/

/-- What a change of the two data bytes by `dhi` and `dlo` adds to their checksum. -/
def checksumChange (dhi dlo : Byte) : Byte := crcBits 8 (crcBits 8 dhi ^^^ dlo)

theorem crc8_pair_xor (hi lo dhi dlo : Byte) :
    crc8 [hi ^^^ dhi, lo ^^^ dlo] = crc8 [hi, lo] ^^^ checksumChange dhi dlo := by
  have hfirst : crcStep crcInitial (hi ^^^ dhi) = crcStep crcInitial hi ^^^ crcBits 8 dhi := by
    rw [crcStep, crcStep, ← BitVec.xor_assoc, crcBits_xor]
  rw [crc8_pair, crc8_pair, checksumChange, hfirst]
  generalize crcStep crcInitial hi = c
  rw [crcStep, crcStep, ← crcBits_xor]
  congr 1
  ac_rfl

/-- The three bytes of a group, from the highest bit down (R64). -/
theorem group_extractLsb' (hi lo sum : Byte) : (hi ++ lo ++ sum).extractLsb' 16 8 = hi ∧
    (hi ++ lo ++ sum).extractLsb' 8 8 = lo ∧ (hi ++ lo ++ sum).extractLsb' 0 8 = sum := by
  refine ⟨?_, ?_, ?_⟩
  · rw [BitVec.extractLsb'_append_eq_of_le (by decide), BitVec.extractLsb'_append_eq_left]
  · rw [BitVec.extractLsb'_append_eq_of_le (by decide)]
    exact BitVec.extractLsb'_append_eq_right
  · exact BitVec.extractLsb'_append_eq_right

/-- A change of one or two bits of a group changes its checksum otherwise than the checksum of its data: 24 * 24 cases. -/
theorem checksumChange_ne : ∀ i j : Fin 24,
    let e : BitVec 24 := (1#24 <<< i.val) ||| (1#24 <<< j.val)
    checksumChange (e.extractLsb' 16 8) (e.extractLsb' 8 8) ≠ e.extractLsb' 0 8 := by
  decide +kernel

/-- Settles O14: by linearity whether a change is seen does not depend on the data. -/
theorem oneAndTwoBitErrorsAreDetected : Obligations.OneAndTwoBitErrorsAreDetected := by
  intro hi lo i j e g h
  obtain ⟨hhi, hlo, hsum⟩ := group_extractLsb' hi lo (crc8 [hi, lo])
  simp only [g, BitVec.extractLsb'_xor, hhi, hlo, hsum, crc8_pair_xor] at h
  exact checksumChange_ne i j ((BitVec.xor_right_inj _).mp h)

/-! ### The long division (R90, R91) -/

/-- One round, as numbers: the register doubled, and the whole polynomial added where the doubling leaves the byte. -/
theorem crcBit_toNat : ∀ c : Byte, (crcBit c).toNat = if c.msb then c.toNat <<< 1 ^^^ 0x131 else c.toNat <<< 1 := by
  decide

/-- One step of the division is one round on the eight highest bits, where the term below them is still zero. -/
theorem polyRemainder_succ {n q : Nat} (hq : q < 2 ^ (n + 8)) (c : Byte) :
    polyRemainder (n + 1) (c.toNat <<< (n + 1) ^^^ q) = polyRemainder n ((crcBit c).toNat <<< n ^^^ q) := by
  have htop : (c.toNat <<< (n + 1) ^^^ q).testBit (n + 8) = c.msb := by
    rw [Nat.testBit_xor, Nat.testBit_lt_two_pow hq, Bool.xor_false, Nat.testBit_shiftLeft, BitVec.msb_eq_getLsbD_last,
      BitVec.getLsbD]
    simp
  rw [polyRemainder, htop, crcBit_toNat]
  cases c.msb with
  | false => rw [if_neg Bool.false_ne_true, if_neg Bool.false_ne_true, ← Nat.shiftLeft_add, Nat.add_comm n 1]
  | true =>
    rw [if_pos rfl, if_pos rfl, Nat.shiftLeft_xor_distrib, ← Nat.shiftLeft_add, Nat.add_comm n 1]
    congr 1
    ac_rfl

/-- As many steps as rounds. -/
theorem polyRemainder_add {n q : Nat} (hq : q < 2 ^ (n + 8)) (k : Nat) (c : Byte) :
    polyRemainder (n + k) (c.toNat <<< (n + k) ^^^ q) = polyRemainder n ((crcBits k c).toNat <<< n ^^^ q) := by
  induction k generalizing c with
  | zero => rfl
  | succ k ih =>
    have hq' : q < 2 ^ (n + k + 8) := hq.trans_le (Nat.pow_le_pow_right (by decide) (by omega))
    rw [← Nat.add_assoc, polyRemainder_succ hq', ih, crcBits]

theorem mul_two_pow_add_eq_xor {m q : Nat} (hq : q < 2 ^ m) (a : Nat) : a * 2 ^ m + q = a <<< m ^^^ q := by
  apply Nat.eq_of_testBit_eq
  intro j
  rw [Nat.mul_comm, Nat.testBit_two_pow_mul_add a hq, Nat.testBit_xor, Nat.testBit_shiftLeft]
  split
  case isTrue hj => simp only [ge_iff_le, Nat.not_le.mpr hj, decide_false, Bool.false_and, Bool.false_xor]
  case isFalse hj =>
    have hle := Nat.le_of_not_lt hj
    have hhigh : q.testBit j = false := Nat.testBit_lt_two_pow (hq.trans_le (Nat.pow_le_pow_right (by decide) hle))
    simp only [ge_iff_le, hle, decide_true, Bool.true_and, hhigh, Bool.xor_false]

/-- The number that bytes spell behind `a`, the first highest (R11). -/
def spell (a : Nat) (bytes : List Byte) : Nat := bytes.foldl (fun n x => n * 256 + x.toNat) a

/-- The bytes stand below what they follow. -/
theorem spell_eq (bytes : List Byte) :
    ∃ v, v < 256 ^ bytes.length ∧ ∀ a, spell a bytes = a * 256 ^ bytes.length + v := by
  induction bytes with
  | nil => exact ⟨0, by decide, fun a => by simp [spell]⟩
  | cons b bytes ih =>
    obtain ⟨v, hv, hspell⟩ := ih
    have hb := b.isLt
    refine ⟨b.toNat * 256 ^ bytes.length + v, ?_, fun a => ?_⟩
    · rw [List.length_cons, Nat.pow_succ]
      nlinarith
    · change spell (a * 256 + b.toNat) bytes = _
      rw [hspell, List.length_cons, Nat.pow_succ]
      ring

/-- Dividing away the highest byte adds its rounds to the next byte. -/
theorem polyRemainder_spell_cons (c b : Byte) (bytes : List Byte) :
    polyRemainder (8 * bytes.length + 8 + 8) (spell c.toNat (b :: bytes) * 256) =
      polyRemainder (8 * bytes.length + 8) (spell (crcBits 8 c ^^^ b).toNat bytes * 256) := by
  obtain ⟨v, hv, hspell⟩ := spell_eq bytes
  have hpow : 256 ^ bytes.length * 256 = 2 ^ (8 * bytes.length + 8) := by
    rw [← Nat.pow_succ, show 256 = 2 ^ 8 from rfl, ← Nat.pow_mul, Nat.mul_succ]
  generalize hm : 8 * bytes.length + 8 = m at hpow ⊢
  have hlow : v * 256 < 2 ^ m := by omega
  have hcut : ∀ a, spell a bytes * 256 = a <<< m ^^^ v * 256 := by
    intro a
    rw [hspell, Nat.add_mul, Nat.mul_assoc, hpow, mul_two_pow_add_eq_xor hlow]
  have hb := b.isLt
  have hsplit : spell c.toNat (b :: bytes) * 256 = c.toNat <<< (m + 8) ^^^ (b.toNat <<< m ^^^ v * 256) := by
    have hbyte : c.toNat * 256 + b.toNat = c.toNat <<< 8 ^^^ b.toNat := mul_two_pow_add_eq_xor hb c.toNat
    have hnext : spell c.toNat (b :: bytes) = spell (c.toNat * 256 + b.toNat) bytes := rfl
    rw [hnext, hcut, hbyte, Nat.shiftLeft_xor_distrib, ← Nat.shiftLeft_add, Nat.add_comm 8 m,
      Nat.xor_assoc]
  have hrest : b.toNat <<< m ^^^ v * 256 < 2 ^ (m + 8) := by
    refine Nat.xor_lt_two_pow ?_ (hlow.trans_le (Nat.pow_le_pow_right (by decide) (by omega)))
    rw [Nat.shiftLeft_eq, Nat.pow_add, Nat.mul_comm]
    exact Nat.mul_lt_mul_of_pos_left hb (by positivity)
  rw [hsplit, polyRemainder_add hrest, hcut, BitVec.toNat_xor, Nat.shiftLeft_xor_distrib, Nat.xor_assoc]

/-- The register after the bytes `bytes`, its rounds of the byte `c` still to come, is the remainder of what they spell. -/
theorem crcFrom_toNat (bytes : List Byte) (c : Byte) :
    (crcFrom (crcBits 8 c) bytes).toNat = polyRemainder (8 * bytes.length + 8) (spell c.toNat bytes * 256) := by
  induction bytes generalizing c with
  | nil =>
    have hdone := polyRemainder_add (n := 0) (q := 0) (by decide) 8 c
    rw [Nat.xor_zero, Nat.xor_zero, Nat.shiftLeft_zero, Nat.zero_add, Nat.shiftLeft_eq] at hdone
    exact hdone.symm
  | cons b bytes ih =>
    have hlen : 8 * (b :: bytes).length + 8 = 8 * bytes.length + 8 + 8 := by rw [List.length_cons]; omega
    rw [hlen, polyRemainder_spell_cons, ← ih]
    rfl

/-- Settles O11: the first byte, added to the initial value, is the first register whose rounds are the division's steps. -/
theorem checksumIsThePolynomialRemainder : Obligations.ChecksumIsThePolynomialRemainder := by
  intro b bytes
  have hfirst : crc8 (b :: bytes) = crcFrom (crcBits 8 (b ^^^ 0xFF)) bytes := by
    rw [BitVec.xor_comm]
    rfl
  have hzero : spell 0 ((b ^^^ 0xFF) :: bytes) = spell (b ^^^ 0xFF).toNat bytes := by
    rw [spell, List.foldl_cons, Nat.zero_mul, Nat.zero_add]
    rfl
  rw [hfirst, crcFrom_toNat, ← hzero]
  rfl

end Sys2Proof.Machine
end

section
/-! What a request may write and what it reads, and what lists of requests do: from that the statements of `10_state.md` and
`20_memory.md` on the registers and the buffers, of `30_encoding.md` on pseudo-instructions, and of `60_exceptions.md`. -/

namespace Sys2Proof.Machine

/-! ### What a request may write (R20, R171) -/

/-- The state `s` with the registers that a request may write taken from `t` (R20, the column "written by"). -/
def State.writtenBy (s t : State) : (i : Instr) → isRequest i = true → State
  | .crcinit, _ => { s with crc := t.crc, err := t.err }
  | .crcupd _, _ => { s with crc := t.crc, err := t.err }
  | .resolve _ _, _ => { s with len := t.len, wait := t.wait, err := t.err }
  | .build _ _ _ _ _, _ => { s with tx := t.tx, txlen := t.txlen, err := t.err }
  | .parse _ _, _ => { s with ngrp := t.ngrp, d := t.d, ok := t.ok, err := t.err }
  | .rawrh _, _ => { s with raw := t.raw, err := t.err }
  | .rawt _, _ => { s with raw := t.raw, err := t.err }
  | .rxwr _ _, _ => { s with rx := t.rx, err := t.err }
  | .txrd _, _ => { s with rdata := t.rdata, err := t.err }

theorem requestEffect_writtenBy {s u : State} : ∀ {i : Instr} (h : isRequest i = true), requestEffect s i h = .ok u →
    u = s.writtenBy u i h
  | .crcinit, _, hu => by cases hu; rfl
  | .crcupd _, _, hu => by cases hu; rfl
  | .resolve code var, _, hu => by
    simp only [requestEffect] at hu
    cases hm : metadata code var <;> rw [hm] at hu <;> cases hu
    rfl
  | .build _ _ _ _ _, _, hu => by cases hu; rfl
  | .parse elen ver, _, hu => by
    simp only [requestEffect, State.parseFrame] at hu
    cases hp : parseResponse s.rxByte elen ver <;> rw [hp] at hu <;> cases hu
    rfl
  | .rawrh val, _, hu => by
    simp only [requestEffect] at hu
    cases hr : rawHumidity (sint16 val) <;> rw [hr] at hu <;> cases hu
    rfl
  | .rawt val, _, hu => by
    simp only [requestEffect] at hu
    cases hr : rawTemperature (sint16 val) <;> rw [hr] at hu <;> cases hu
    rfl
  | .rxwr idx _, _, hu => by
    simp only [requestEffect] at hu
    split at hu <;> cases hu
    rfl
  | .txrd idx, _, hu => by
    simp only [requestEffect] at hu
    split at hu <;> cases hu
    rfl

theorem State.writtenBy_complete (s t : State) (i : Instr) (h : isRequest i = true) :
    s.writtenBy t.complete i h = (s.writtenBy t i h).complete := by
  unfold State.writtenBy
  split <;> rfl

theorem State.writtenBy_takeFault (s : State) (f : BlockFault) (i : Instr) (h : isRequest i = true) :
    s.writtenBy (s.takeFault f) i h = s.takeFault f := by
  unfold State.writtenBy
  split <;> rfl

/-- A request changes nothing but the registers it may write and `ERR`. -/
theorem exec_writtenBy {i : Instr} {s t : State} (h : isRequest i = true) (ht : exec i s = .next t) :
    t = s.writtenBy t i h := by
  rw [exec_request s i h] at ht
  obtain rfl := Host.Outcome.next.inj ht
  obtain ⟨u, hu, hdone⟩ | ⟨f, -, hfault⟩ := s.answer_cases (requestEffect s i h)
  · rw [hdone, State.writtenBy_complete, ← requestEffect_writtenBy h hu]
  · rw [hfault, State.writtenBy_takeFault]

/-- Settles O31: a request that is not a register's writer takes it over from the state before. -/
theorem registersHaveTheirWriters : Obligations.RegistersHaveTheirWriters := by
  intro i s t h ht
  have hframe := exec_writtenBy h ht
  refine ⟨fun hne => ?crc, fun hne => ?tx, fun hne => ?rx, fun hne => ?metadata, fun hne => ?groups, fun hne => ?raw,
    fun hne => ?rdata⟩
  case crc =>
    match i, h with
    | .crcinit, _ => exact .inl rfl
    | .crcupd b, _ => exact .inr ⟨b, rfl⟩
    | .resolve _ _, _ | .build _ _ _ _ _, _ | .parse _ _, _ | .rawrh _, _ | .rawt _, _ | .rxwr _ _, _ | .txrd _, _ =>
      exact absurd (congrArg State.crc hframe) hne
  case tx =>
    match i, h with
    | .build c p q r u, _ => exact ⟨c, p, q, r, u, rfl⟩
    | .crcinit, _ | .crcupd _, _ | .resolve _ _, _ | .parse _ _, _ | .rawrh _, _ | .rawt _, _ | .rxwr _ _, _ | .txrd _, _ =>
      obtain ⟨j, hj⟩ | hlen := hne
      · exact absurd (congrArg (·.txByte j) hframe) hj
      · exact absurd (congrArg State.txlen hframe) hlen
  case rx =>
    match i, h with
    | .rxwr j b, _ => exact ⟨j, b, rfl⟩
    | .crcinit, _ | .crcupd _, _ | .resolve _ _, _ | .build _ _ _ _ _, _ | .parse _ _, _ | .rawrh _, _ | .rawt _, _
    | .txrd _, _ =>
      obtain ⟨j, hj⟩ := hne
      exact absurd (congrArg (·.rxByte j) hframe) hj
  case metadata =>
    match i, h with
    | .resolve c v, _ => exact ⟨c, v, rfl⟩
    | .crcinit, _ | .crcupd _, _ | .build _ _ _ _ _, _ | .parse _ _, _ | .rawrh _, _ | .rawt _, _ | .rxwr _ _, _
    | .txrd _, _ =>
      obtain hlen | hwait := hne
      · exact absurd (congrArg State.len hframe) hlen
      · exact absurd (congrArg State.wait hframe) hwait
  case groups =>
    match i, h with
    | .parse n v, _ => exact ⟨n, v, rfl⟩
    | .crcinit, _ | .crcupd _, _ | .resolve _ _, _ | .build _ _ _ _ _, _ | .rawrh _, _ | .rawt _, _ | .rxwr _ _, _
    | .txrd _, _ =>
      obtain hngrp | hd | hok := hne
      · exact absurd (congrArg State.ngrp hframe) hngrp
      · exact absurd (congrArg State.d hframe) hd
      · exact absurd (congrArg State.ok hframe) hok
  case raw =>
    match i, h with
    | .rawrh v, _ => exact .inl ⟨v, rfl⟩
    | .rawt v, _ => exact .inr ⟨v, rfl⟩
    | .crcinit, _ | .crcupd _, _ | .resolve _ _, _ | .build _ _ _ _ _, _ | .parse _ _, _ | .rxwr _ _, _ | .txrd _, _ =>
      exact absurd (congrArg State.raw hframe) hne
  case rdata =>
    match i, h with
    | .txrd j, _ => exact ⟨j, rfl⟩
    | .crcinit, _ | .crcupd _, _ | .resolve _ _, _ | .build _ _ _ _ _, _ | .parse _ _, _ | .rawrh _, _ | .rawt _, _
    | .rxwr _ _, _ => exact absurd (congrArg State.rdata hframe) hne

/-- The host's fields and the model's own are in `t` what they are in `s`: only registers of the block differ. -/
structure SameHost (s t : State) : Prop where
  session : t.session = s.session
  results : t.results = s.results
  inbox : t.inbox = s.inbox
  exchanges : t.exchanges = s.exchanges
  draws : t.draws = s.draws
  epoch : t.epoch = s.epoch
  sentEpoch : t.sentEpoch = s.sentEpoch
  trace : t.trace = s.trace

theorem State.sameHost_writtenBy (s t : State) (i : Instr) (h : isRequest i = true) : SameHost s (s.writtenBy t i h) := by
  unfold State.writtenBy
  split <;> exact ⟨rfl, rfl, rfl, rfl, rfl, rfl, rfl, rfl⟩

theorem sameHost_of_exec {i : Instr} {s t : State} (h : isRequest i = true) (ht : exec i s = .next t) : SameHost s t :=
  exec_writtenBy h ht ▸ s.sameHost_writtenBy t i h

/-- A request word completes, and changes registers of the block only. -/
theorem present_request_sameHost (w : Req) (s : State) : ∃ t, present (.request w) s = .next t ∧ SameHost s t := by
  by_cases hop : opOf w ≤ 8
  · obtain ⟨i, hdecode, h⟩ := decode_isRequest_iff.mpr hop
    have ht := exec_request s i h
    exact ⟨_, (present_of_decode hdecode s).trans ht, sameHost_of_exec h ht⟩
  · exact ⟨_, present_reserved (Nat.lt_of_not_le hop) s, ⟨rfl, rfl, rfl, rfl, rfl, rfl, rfl, rfl⟩⟩

/-- Settles O30: a word decodes to a request, which completes, or its reserved `OP` takes a fault. -/
theorem everyRequestWordCompletes : Obligations.EveryRequestWordCompletes := by
  intro w s
  obtain ⟨t, ht, h⟩ := present_request_sameHost w s
  exact ⟨t, ht, h.session, h.results, h.inbox, h.exchanges, h.draws, h.epoch, h.sentEpoch, h.trace⟩

/-! ### The readers of the buffers (R40) -/

theorem State.setRaw_comm {g : State → State} (s : State) (hg : ∀ v, { g s with raw := v } = g { s with raw := v })
    (r : Option Word) : (g s).setRaw r = (s.setRaw r).map g := by
  cases r with
  | none => rfl
  | some v => exact congrArg Except.ok (hg v)

/-- A request that is neither `BUILD` nor `TXRD` neither reads nor writes `TX`. -/
theorem requestEffect_setTx (s : State) (m : Memory) : ∀ (i : Instr) (h : isRequest i = true),
    (∀ c p q r u, i ≠ .build c p q r u) → (∀ j, i ≠ .txrd j) →
    requestEffect { s with tx := m } i h = (requestEffect s i h).map fun t => { t with tx := m }
  | .crcinit, _, _, _ => rfl
  | .crcupd _, _, _, _ => rfl
  | .resolve code var, _, _, _ => by
    simp only [requestEffect]
    cases metadata code var <;> rfl
  | .build c p q r u, _, hbuild, _ => absurd rfl (hbuild c p q r u)
  | .parse elen ver, _, _, _ => State.parseFrame_comm (g := fun t => { t with tx := m }) rfl (fun _ => rfl) elen ver
  | .rawrh _, _, _, _ => State.setRaw_comm (g := fun t => { t with tx := m }) s (fun _ => rfl) _
  | .rawt _, _, _, _ => State.setRaw_comm (g := fun t => { t with tx := m }) s (fun _ => rfl) _
  | .rxwr idx b, _, _, _ => by
    simp only [requestEffect]
    split <;> rfl
  | .txrd j, _, _, htxrd => absurd rfl (htxrd j)

/-- A request that is neither `RXWR` nor `PARSE` neither reads nor writes `RX`. -/
theorem requestEffect_setRx (s : State) (m : Memory) : ∀ (i : Instr) (h : isRequest i = true),
    (∀ j b, i ≠ .rxwr j b) → (∀ n v, i ≠ .parse n v) →
    requestEffect { s with rx := m } i h = (requestEffect s i h).map fun t => { t with rx := m }
  | .crcinit, _, _, _ => rfl
  | .crcupd _, _, _, _ => rfl
  | .resolve code var, _, _, _ => by
    simp only [requestEffect]
    cases metadata code var <;> rfl
  | .build _ _ _ _ _, _, _, _ => rfl
  | .parse n v, _, _, hparse => absurd rfl (hparse n v)
  | .rawrh _, _, _, _ => State.setRaw_comm (g := fun t => { t with rx := m }) s (fun _ => rfl) _
  | .rawt _, _, _, _ => State.setRaw_comm (g := fun t => { t with rx := m }) s (fun _ => rfl) _
  | .rxwr j b, _, hrxwr, _ => absurd rfl (hrxwr j b)
  | .txrd idx, _, _, _ => by
    simp only [requestEffect]
    split <;> rfl

/-- A change `g` of the state that a request's effect commutes with is a change of its next state. -/
theorem exec_comm {i : Instr} {s : State} (g : State → State) (h : isRequest i = true)
    (heffect : requestEffect (g s) i h = (requestEffect s i h).map g) (hok : ∀ t, (g t).complete = g t.complete)
    (hfault : ∀ f, (g s).takeFault f = g (s.takeFault f)) : exec i (g s) = mapNext g (exec i s) := by
  rw [exec_request _ i h, exec_request s i h, heffect]
  exact congrArg Host.Outcome.next (State.answer_comm s _ hok hfault)

theorem exec_setTx (i : Instr) (s : State) (m : Memory) (h : isRequest i = true)
    (hbuild : ∀ c p q r u, i ≠ .build c p q r u) (htxrd : ∀ j, i ≠ .txrd j) :
    exec i { s with tx := m } = mapNext (fun t => { t with tx := m }) (exec i s) :=
  exec_comm (fun t => { t with tx := m }) h (requestEffect_setTx s m i h hbuild htxrd) (fun _ => rfl) fun _ => rfl

theorem exec_setRx (i : Instr) (s : State) (m : Memory) (h : isRequest i = true)
    (hrxwr : ∀ j b, i ≠ .rxwr j b) (hparse : ∀ n v, i ≠ .parse n v) :
    exec i { s with rx := m } = mapNext (fun t => { t with rx := m }) (exec i s) :=
  exec_comm (fun t => { t with rx := m }) h (requestEffect_setRx s m i h hrxwr hparse) (fun _ => rfl) fun _ => rfl

/-- `BUILD` writes its frame over any content of `TX` (R111). -/
theorem txByte_build_of_setTx (s : State) (m : Memory) (code : Word) (p : Option (Word × Word)) (j : Nat) :
    (({ s with tx := m } : State).buildFrame code p).txByte j = (s.buildFrame code p).txByte j ∨
    (s.buildFrame code p).txByte j = s.txByte j ∧
      (({ s with tx := m } : State).buildFrame code p).txByte j = ({ s with tx := m } : State).txByte j := by
  rw [State.buildFrame_txByte, State.buildFrame_txByte]
  cases (frameBytes code p)[j]? with
  | none => exact .inr ⟨rfl, rfl⟩
  | some b => exact .inl rfl

/-- `RXWR` writes its byte over any content of `RX` (R116). -/
theorem rxByte_write_of_setRx (s : State) (m : Memory) (i : Nat) (b : Byte) (j : Nat) :
    ({ s with rx := m.write i b } : State).rxByte j = ({ s with rx := s.rx.write i b } : State).rxByte j ∨
    ({ s with rx := s.rx.write i b } : State).rxByte j = s.rxByte j ∧
      ({ s with rx := m.write i b } : State).rxByte j = ({ s with rx := m } : State).rxByte j := by
  have hm := ({ s with rx := m } : State).rxByte_write i b j
  rw [s.rxByte_write]
  split at hm
  case isTrue hj => exact .inl (by rw [if_pos hj]; exact hm)
  case isFalse hj => exact .inr ⟨if_neg hj, hm⟩

theorem tx_noninterference {i : Instr} {s : State} (m : Memory) (h : isRequest i = true) (htxrd : ∀ j, i ≠ .txrd j) :
    ∃ t u, exec i s = .next t ∧ exec i { s with tx := m } = .next u ∧ u = { t with tx := u.tx } ∧
      ∀ j, u.txByte j = t.txByte j ∨ t.txByte j = s.txByte j ∧ u.txByte j = ({ s with tx := m } : State).txByte j := by
  by_cases hbuild : ∃ c p q r u, i = .build c p q r u
  · obtain ⟨c, p, q, r, u, rfl⟩ := hbuild
    exact ⟨_, _, exec_build c p q r u s, exec_build c p q r u _, rfl, txByte_build_of_setTx s m c _⟩
  · have hcomm m' := exec_setTx i s m' h (fun c p q r u hi => hbuild ⟨c, p, q, r, u, hi⟩) htxrd
    obtain ⟨t, ht, hfixed⟩ := exec_fixed_of_comm h (hcomm s.tx)
    have hepoch := (sameHost_of_exec h ht).epoch
    refine ⟨t, { t with tx := m }, ht, by rw [hcomm m, ht]; rfl, rfl, fun j => .inr ⟨?_, ?_⟩⟩
    · rw [State.txByte, hfixed, State.txByte, ← hepoch]
    · rw [State.txByte, State.txByte, ← hepoch]

theorem rx_noninterference {i : Instr} {s : State} (m : Memory) (h : isRequest i = true) (hparse : ∀ n v, i ≠ .parse n v) :
    ∃ t u, exec i s = .next t ∧ exec i { s with rx := m } = .next u ∧ u = { t with rx := u.rx } ∧
      ∀ j, u.rxByte j = t.rxByte j ∨ t.rxByte j = s.rxByte j ∧ u.rxByte j = ({ s with rx := m } : State).rxByte j := by
  by_cases hrxwr : ∃ k b, i = .rxwr k b
  · obtain ⟨k, b, rfl⟩ := hrxwr
    by_cases hpast : rxCap ≤ k.toNat
    · exact ⟨_, _, exec_rxwr_pastEnd hpast b s, exec_rxwr_pastEnd hpast b _, rfl, fun _ => .inr ⟨rfl, rfl⟩⟩
    · have hin := Nat.lt_of_not_le hpast
      exact ⟨_, _, exec_rxwr_inside hin b s, exec_rxwr_inside hin b _, rfl, rxByte_write_of_setRx s m k.toNat b⟩
  · have hcomm m' := exec_setRx i s m' h (fun k b hi => hrxwr ⟨k, b, hi⟩) hparse
    obtain ⟨t, ht, hfixed⟩ := exec_fixed_of_comm h (hcomm s.rx)
    have hepoch := (sameHost_of_exec h ht).epoch
    refine ⟨t, { t with rx := m }, ht, by rw [hcomm m, ht]; rfl, rfl, fun j => .inr ⟨?_, ?_⟩⟩
    · rw [State.rxByte, hfixed, State.rxByte, ← hepoch]
    · rw [State.rxByte, State.rxByte, ← hepoch]

/-- Settles O32: a request that is no reader of a buffer takes the buffer's other content over, but for the bytes it writes. -/
theorem buffersHaveOneReader : Obligations.BuffersHaveOneReader := by
  refine ⟨fun i s s' m h htxrd hs' => ?_, fun i s s' m h hparse hs' => ?_⟩
  · subst hs'
    exact tx_noninterference m h htxrd
  · subst hs'
    exact rx_noninterference m h hparse

end Sys2Proof.Machine
end

section
/-! Where `PARSE` faults, what lists of requests do, and how the transforms grow: from that the statements of `60_exceptions.md`
on faults, of `30_encoding.md` section 6, of `20_memory.md` section 5 and of `43_value_transforms.md`. -/

namespace Sys2Proof.Machine

/-! ### The faults of `PARSE` (R113, R165, R166) -/

/-- The loop faults on a corrupt group among those it reads, and with verification on only. -/
theorem decodeGroups_error {s : State} {ver : Bool} {n i : Nat} {f : BlockFault}
    (h : decodeGroups s.rxByte ver i n = .error f) :
    ver = true ∧ ∃ k, k < i + n ∧ s.rxStored k ≠ s.rxComputed k ∧ f = s.rxMismatch k := by
  induction n generalizing i with
  | zero => cases h
  | succ n ih =>
    by_cases hstop : ver = true ∧ s.rxStored i ≠ s.rxComputed i
    · obtain ⟨rfl, hcorrupt⟩ := hstop
      rw [decodeGroups_succ_of_corrupt hcorrupt] at h
      exact ⟨rfl, i, by omega, hcorrupt, (Except.error.inj h).symm⟩
    · have hgo : ver = true → s.rxStored i = s.rxComputed i := fun hver => not_not.mp fun hne => hstop ⟨hver, hne⟩
      rw [decodeGroups_succ_of_intact hgo] at h
      rcases htail : decodeGroups s.rxByte ver (i + 1) n with f' | gs
      · rw [htail] at h
        obtain rfl := Except.error.inj h
        obtain ⟨hver, k, hk, hrest⟩ := ih htail
        exact ⟨hver, k, by omega, hrest⟩
      · rw [htail] at h
        cases h

theorem parseResponse_error {s : State} {elen : BitVec 4} {ver : Bool} {f : BlockFault}
    (h : parseResponse s.rxByte elen ver = .error f) :
    legalLength elen = false ∧ f = .invalidLength ∨
    legalLength elen = true ∧ ver = true ∧ ∃ k, k < 3 ∧ s.rxStored k ≠ s.rxComputed k ∧ f = s.rxMismatch k := by
  unfold parseResponse at h
  split at h
  case isTrue hlegal =>
    have hgroups : elen.toNat / 3 ≤ 3 := by
      rw [legalLength_iff] at hlegal
      bv_omega
    obtain ⟨hver, k, hk, hrest⟩ := decodeGroups_error h
    exact .inr ⟨hlegal, hver, k, by omega, hrest⟩
  case isFalse hillegal => exact .inl ⟨Bool.eq_false_of_not_eq_true hillegal, (Except.error.inj h).symm⟩

/-! ### The faults of a well-formed request (R80, R81, R207) -/

/-- The table has an entry for a supported command (R80 b and c). -/
theorem exists_metadata_of_supported {code : Word} {var : Variant} (h : supported code var = true) :
    ∃ m, metadata code var = .ok m := by
  unfold supported at h
  unfold metadata
  cases hcmd : commandOfCode code with
  | none =>
    rw [hcmd] at h
    cases h
  | some cmd =>
    obtain hentry | ⟨rfl, rfl⟩ := metadataTable_cases cmd var
    · exact hentry
    · rw [hcmd] at h
      cases h

/-- Legal operands leave a request one fault: the checksum mismatch of a verified `PARSE`. -/
theorem requestEffect_error_of_wellFormed {s : State} {f : BlockFault} : ∀ {i : Instr} (h : isRequest i = true),
    i.WellFormed → requestEffect s i h = .error f → ∃ n k, i = .parse n true ∧ f = s.rxMismatch k
  | .crcinit, _, _, hf => by cases hf
  | .crcupd _, _, _, hf => by cases hf
  | .resolve code var, _, hwf, hf => by
    obtain ⟨m, hm⟩ := exists_metadata_of_supported hwf
    simp only [requestEffect, hm] at hf
    cases hf
  | .build _ _ _ _ _, _, _, hf => by cases hf
  | .parse elen ver, _, hwf, hf => by
    simp only [requestEffect, State.parseFrame] at hf
    cases hp : parseResponse s.rxByte elen ver with
    | ok gs =>
      rw [hp] at hf
      cases hf
    | error f' =>
      rw [hp] at hf
      obtain rfl := Except.error.inj hf
      obtain ⟨hillegal, -⟩ | ⟨-, hver, k, -, -, hk⟩ := parseResponse_error hp
      · exact absurd hwf (Bool.eq_false_iff.mp hillegal)
      · exact ⟨elen, k, by rw [hver], hk⟩
  | .rawrh val, _, hwf, hf => by
    obtain ⟨r, hr⟩ := Option.isSome_iff_exists.mp hwf
    simp only [requestEffect, hr] at hf
    cases hf
  | .rawt val, _, hwf, hf => by
    obtain ⟨r, hr⟩ := Option.isSome_iff_exists.mp hwf
    simp only [requestEffect, hr] at hf
    cases hf
  | .rxwr idx _, _, hwf, hf => by
    rw [requestEffect, if_neg (Nat.not_le.mpr (of_decide_eq_true hwf))] at hf
    cases hf
  | .txrd idx, _, hwf, hf => by
    rw [requestEffect, if_neg (Nat.not_le.mpr (of_decide_eq_true hwf))] at hf
    cases hf

/-- Settles O33: a well-formed request completes, or is a verified `PARSE` with a corrupt group. -/
theorem wellFormedRequestsFaultOnChecksumsOnly : Obligations.WellFormedRequestsFaultOnChecksumsOnly := by
  intro i s t hwf h ht
  rw [exec_request s i h] at ht
  obtain rfl := Host.Outcome.next.inj ht
  obtain ⟨u, -, hdone⟩ | ⟨f, hf, hfault⟩ := s.answer_cases (requestEffect s i h)
  · exact .inl (by rw [hdone]; rfl)
  · obtain ⟨n, k, hparse, rfl⟩ := requestEffect_error_of_wellFormed h hwf hf
    exact .inr ⟨by rw [hfault]; rfl, n, hparse⟩

/-! ### `PARSE` again (R46, R173) -/

/-- Storing the same groups again changes nothing. -/
theorem State.setGroups_setGroups (s : State) (gs : List (Word × Bool)) :
    (s.setGroups gs).complete.setGroups gs = (s.setGroups gs).complete := by
  have hd : ((s.setGroups gs).complete.setGroups gs).d = (s.setGroups gs).d := by
    apply Vector.ext
    intro i hi
    have hagain := (s.setGroups gs).complete.setGroups_d_getElem gs ⟨i, hi⟩
    have honce := s.setGroups_d_getElem gs ⟨i, hi⟩
    simp only [State.complete_d, Fin.getElem_fin] at hagain honce
    rw [hagain, honce]
    cases gs[i]? <;> rfl
  have hok : ((s.setGroups gs).complete.setGroups gs).ok = (s.setGroups gs).ok := by
    apply Vector.ext
    intro i hi
    have hagain := (s.setGroups gs).complete.setGroups_ok_getElem gs ⟨i, hi⟩
    have honce := s.setGroups_ok_getElem gs ⟨i, hi⟩
    simp only [State.complete_ok, Fin.getElem_fin] at hagain honce
    rw [hagain, honce]
    cases gs[i]? <;> rfl
  calc (s.setGroups gs).complete.setGroups gs
      = { (s.setGroups gs).complete with
          d := ((s.setGroups gs).complete.setGroups gs).d
          ok := ((s.setGroups gs).complete.setGroups gs).ok } := rfl
    _ = (s.setGroups gs).complete := by rw [hd, hok]; rfl

/-- Settles O23: `PARSE` does not write what it reads, so it decodes the same groups or takes the same fault again. -/
theorem parseIsRepeatable : Obligations.ParseIsRepeatable := by
  intro elen ver s t ht
  rw [exec_parse] at ht ⊢
  obtain rfl := Host.Outcome.next.inj ht
  cases hp : parseResponse s.rxByte elen ver with
  | error f =>
    have hrx : (s.answer (Except.map s.setGroups (.error f))).rxByte = s.rxByte := rfl
    rw [hrx, hp]
    rfl
  | ok gs =>
    have hrx : (s.answer (Except.map s.setGroups (.ok gs))).rxByte = s.rxByte := rfl
    rw [hrx, hp]
    have hagain : ((s.setGroups gs).complete.setGroups gs).complete = (s.setGroups gs).complete := by
      rw [s.setGroups_setGroups]
      rfl
    exact congrArg Host.Outcome.next hagain

/-! ### Lists of instructions (R49) -/

theorem runInstrs_append {as : List Instr} {s t : State} (h : runInstrs as s = .next t) (bs : List Instr) :
    runInstrs (as ++ bs) s = runInstrs bs t := by
  induction as generalizing s with
  | nil =>
    obtain rfl := Host.Outcome.next.inj h
    rfl
  | cons i as ih =>
    rw [runInstrs] at h
    rw [List.cons_append, runInstrs]
    cases hi : exec i s with
    | next u =>
      rw [hi] at h
      exact ih h
    | fault r =>
      rw [hi] at h
      cases h
    | refused r =>
      rw [hi] at h
      cases h

theorem runInstrs_crcupds (bytes : List Byte) (s : State) :
    runInstrs (bytes.map .crcupd) s.complete = .next ({ s with crc := crcFrom s.crc bytes } : State).complete := by
  induction bytes generalizing s with
  | nil => rfl
  | cons b bytes ih =>
    rw [List.map_cons, runInstrs_cons (exec_crcupd b s.complete)]
    exact ih _

theorem runInstrs_checksum (bytes : List Byte) (s : State) :
    runInstrs (pseudoChecksum bytes) s = .next ({ s with crc := crc8 bytes } : State).complete := by
  rw [pseudoChecksum, runInstrs_cons (exec_crcinit s)]
  exact runInstrs_crcupds bytes { s with crc := crcInitial }

theorem toNat_ofNat_index {i : Nat} (h : i < 16) : (BitVec.ofNat 4 i).toNat = i := by
  rw [BitVec.toNat_ofNat, Nat.mod_eq_of_lt h]

/-- The writes of `RXLOAD` from an index on. -/
theorem runInstrs_rxwrs {bytes : List Byte} (hne : bytes ≠ []) {base : Nat} (hlen : base + bytes.length ≤ rxCap) (s : State) :
    runInstrs ((bytes.zipIdx base).map fun p => .rxwr (BitVec.ofNat 4 p.2) p.1) s =
      .next ({ s with rx := s.rx.store base bytes } : State).complete := by
  induction bytes generalizing base s with
  | nil => exact absurd rfl hne
  | cons b bytes ih =>
    rw [List.length_cons] at hlen
    have hin : base < rxCap := by omega
    have hidx : (BitVec.ofNat 4 base).toNat = base := toNat_ofNat_index (hin.trans (by decide))
    have hfirst : exec (.rxwr (BitVec.ofNat 4 base) b) s = .next ({ s with rx := s.rx.write base b } : State).complete := by
      rw [exec_rxwr_inside (by rw [hidx]; exact hin), hidx]
    rw [List.zipIdx_cons, List.map_cons, runInstrs_cons hfirst]
    cases bytes with
    | nil => rfl
    | cons c bytes => exact ih (List.cons_ne_nil c bytes) (by omega) _

theorem runInstrs_rxload {bytes : List Byte} (hne : bytes ≠ []) (hlen : bytes.length ≤ rxCap) (s : State) :
    runInstrs (pseudoRxload bytes) s = .next (s.loadRx bytes) :=
  runInstrs_rxwrs hne (by omega) s

theorem State.dumpTx_add_one (s : State) (n : Nat) : s.dumpTx (n + 1) = ((s.dumpTx n).fetchTx n).complete := by
  rw [State.dumpTx, State.dumpTx, List.range_succ, List.foldl_append]
  rfl

theorem runInstrs_txdump {n : Nat} (hn : n ≤ txCap) (s : State) : runInstrs (pseudoTxdump n) s = .next (s.dumpTx n) := by
  induction n with
  | zero => rfl
  | succ n ih =>
    have hidx : (BitVec.ofNat 4 n).toNat = n := toNat_ofNat_index (Nat.lt_of_lt_of_le hn (by decide))
    have hlast : exec (.txrd (BitVec.ofNat 4 n)) (s.dumpTx n) = .next (s.dumpTx (n + 1)) := by
      rw [exec_txrd_inside (by rw [hidx]; exact hn), hidx, State.dumpTx_add_one]
    have hsplit : pseudoTxdump (n + 1) = pseudoTxdump n ++ [.txrd (BitVec.ofNat 4 n)] := by
      rw [pseudoTxdump, List.range_succ, List.map_append]
      rfl
    rw [hsplit, runInstrs_append (ih (Nat.le_of_lt hn))]
    exact runInstrs_cons hlast []

/-- Settles O34: each pseudo-instruction by the list of its requests. -/
theorem pseudoInstructionsDoTheirWork : Obligations.PseudoInstructionsDoTheirWork := by
  refine ⟨runInstrs_checksum, fun bytes s hne hlen => ?rxload, fun n s hn => ?txdump⟩
  case rxload => exact ⟨_, runInstrs_rxload hne hlen s, s.loadRx_rxByte bytes, rfl⟩
  case txdump =>
    rw [runInstrs_txdump hn, State.dumpTx_succ]
    rfl

/-! ### Reads after writes (R49) -/

theorem runInstrs_build_txrd {code rh t : Word} {rhp tp : Bool} {i : BitVec 4} {b : Byte} (s : State)
    (hb : (frameBytes code (suppliedParams rhp tp rh t))[i.toNat]? = some b) :
    ∃ u, runInstrs [.build code rhp tp rh t, .txrd i] s = .next u ∧ u.rdata = b := by
  have hlen : i.toNat < txCap := by
    obtain ⟨hlt, -⟩ := List.getElem?_eq_some_iff.mp hb
    rw [frameBytes_length] at hlt
    split at hlt <;> simp only [txCap] <;> omega
  refine ⟨_, by rw [runInstrs_cons (exec_build code rhp tp rh t s), runInstrs_cons (exec_txrd_inside hlen _)]; rfl, ?_⟩
  have hread := s.buildFrame_txByte code (suppliedParams rhp tp rh t) i.toNat
  rw [hb] at hread
  exact hread

/-- Writes inside `RX`, in any order, leave at each index the byte last written there. -/
theorem runInstrs_rxwr_lastWritten (ws : List (BitVec 4 × Byte)) (s : State) (h : ∀ w ∈ ws, w.1.toNat ≤ 8) :
    ∃ u, runInstrs (ws.map fun w => .rxwr w.1 w.2) s = .next u ∧
      ∀ j, u.rxByte j = (lastWritten ws j).getD (s.rxByte j) := by
  induction ws generalizing s with
  | nil => exact ⟨s, rfl, fun _ => rfl⟩
  | cons w ws ih =>
    obtain ⟨hw, hrest⟩ := List.forall_mem_cons.mp h
    obtain ⟨u, hu, hbytes⟩ := ih ({ s with rx := s.rx.write w.1.toNat w.2 } : State).complete hrest
    refine ⟨u, ?_, fun j => ?_⟩
    · rw [List.map_cons, runInstrs_cons (exec_rxwr_inside (Nat.lt_succ_of_le hw) w.2 s), hu]
    · have hfirst : ({ s with rx := s.rx.write w.1.toNat w.2 } : State).complete.rxByte j =
          if j = w.1.toNat then w.2 else s.rxByte j := s.rxByte_write w.1.toNat w.2 j
      rw [hbytes, hfirst, lastWritten]
      cases lastWritten ws j with
      | some b => rfl
      | none =>
        by_cases hj : j = w.1.toNat
        · rw [if_pos hj, if_pos hj.symm]
          rfl
        · rw [if_neg hj, if_neg (Ne.symm hj)]
          rfl

/-- Settles O21: a fetch after a build, and a `PARSE` (O18) of the bytes that the writes left. -/
theorem readsSeeTheLatestWrites : Obligations.ReadsSeeTheLatestWrites := by
  refine ⟨fun code rh t rhp tp i s b hb => runInstrs_build_txrd s hb, ?_⟩
  intro ws s h held intact
  obtain ⟨u, hu, hbytes⟩ := runInstrs_rxwr_lastWritten ws s h
  have hheld : u.rxByte = held := funext hbytes
  have hintact : ∀ i, u.rxStored i = u.rxComputed i ↔ intact i := fun i => by
    rw [State.rxStored, State.rxComputed, hheld, eq_comm]
  refine ⟨u, hu, hbytes, fun n elen ver hn hlen => ?_⟩
  obtain ⟨-, hdelivered, hcorrupt⟩ := parseSplitsAndChecksTheResponse.2 elen ver u
  refine ⟨fun hall => ?delivered, fun i hver hi hbefore hbad => ?corrupt⟩
  case delivered =>
    obtain ⟨t, ht, hd, hok, hframe⟩ := hdelivered n hn hlen fun hver i hi => (hintact i).mpr (hall hver i hi)
    refine ⟨t, ht, by rw [hframe], by rw [hframe], fun i hi => ⟨?_, ?_⟩⟩
    · rw [hd i, if_pos hi, State.rxGroup, hheld]
    · rw [hok i, if_pos hi, decide_eq_true_iff, eq_comm, hintact]
  case corrupt =>
    rw [hcorrupt n i hn hlen hi hver (fun j hj => (hintact j).mpr (hbefore j hj)) (mt (hintact i).mp hbad),
      State.rxStored, State.rxComputed, hheld]

/-! ### A built frame parsed back (R95) -/

theorem joinBytes_hiByte_loByte (v : Word) : BitVec.ofNat 16 ((hiByte v).toNat * 256 + (loByte v).toNat) = v := by
  rw [← joinBytes_eq_ofNat, joinBytes_split]

/-- The two parameter groups of a frame that `BUILD` wrote, as they stand in `TX` (R62). -/
theorem txBytes_build (code rh t : Word) (s : State) :
    ((List.range 6).map fun i => (s.buildFrame code (some (rh, t))).complete.txByte (i + 2)) =
      guardedWord rh ++ guardedWord t := by
  have hbyte : ∀ i, (s.buildFrame code (some (rh, t))).complete.txByte i =
      ((frameBytes code (some (rh, t)))[i]?).getD (s.txByte i) := s.buildFrame_txByte code (some (rh, t))
  simp only [hbyte]
  rfl

/-- Settles O22: the copied bytes are two guarded words, which `PARSE` takes as intact groups. -/
theorem builtFrameParsesBack : Obligations.BuiltFrameParsesBack := by
  intro code rh t s
  refine ⟨(s.buildFrame code (some (rh, t))).complete, ?_⟩
  rw [txBytes_build]
  generalize hu : (s.buildFrame code (some (rh, t))).complete = u
  generalize hl : u.loadRx (guardedWord rh ++ guardedWord t) = l
  have hload : runInstrs (pseudoRxload (guardedWord rh ++ guardedWord t)) u = .next l := by
    rw [← hl]
    have hlen : (guardedWord rh ++ guardedWord t).length ≤ rxCap := (by decide : 6 ≤ 9)
    exact runInstrs_rxload (List.cons_ne_nil _ _) hlen u
  have hbytes : ∀ i, l.rxByte i = ((guardedWord rh ++ guardedWord t)[i]?).getD (u.rxByte i) := by
    rw [← hl]
    exact u.loadRx_rxByte _
  have hintact : ∀ i, i < 2 → l.rxStored i = l.rxComputed i := by
    intro i hi
    rw [State.rxStored, State.rxComputed, hbytes, hbytes, hbytes]
    interval_cases i <;> rfl
  obtain ⟨v, hv, hd, hok, hframe⟩ := (parseSplitsAndChecksTheResponse.2 6 true l).2.1 2 (by decide) rfl fun _ => hintact
  refine ⟨v, hu ▸ exec_build code true true rh t s, ?_, by rw [hframe], by rw [hframe]; rfl, ?_, ?_, ?_, ?_⟩
  · rw [runInstrs_append hload, runInstrs_cons hv]
    rfl
  · have hgroup : l.rxGroup 0 = rh := by
      rw [State.rxGroup, hbytes, hbytes]
      exact joinBytes_hiByte_loByte rh
    rw [← hgroup]
    exact hd 0
  · have hgroup : l.rxGroup 1 = t := by
      rw [State.rxGroup, hbytes, hbytes]
      exact joinBytes_hiByte_loByte t
    rw [← hgroup]
    exact hd 1
  · exact (hok 0).trans (decide_eq_true (hintact 0 (by decide)).symm)
  · exact (hok 1).trans (decide_eq_true (hintact 1 (by decide)).symm)

/-! ### The transforms grow (R132, R134, R135) -/

/-- With a factor of at least one, each unit of the operand raises the rounded product. -/
theorem roundScaled_lt_roundScaled {k m num den : Nat} (hden : 0 < den) (hfactor : den ≤ num) (h : k < m) :
    roundScaled k num den < roundScaled m num den := by
  have hstep : roundScaled k num den + 1 ≤ roundScaled (k + 1) num den := by
    rw [roundScaled, roundScaled, ← Nat.add_div_right _ (by omega)]
    exact Nat.div_le_div_right (by nlinarith)
  exact hstep.trans (roundScaled_le_roundScaled h num den)

/-- Two operands in order whose largest result fits `RAW` have their words in order. -/
theorem ofNat_roundScaled_lt {k m top num den : Nat} (hden : 0 < den) (hfactor : den ≤ num) (h : k < m) (hm : m ≤ top)
    (hfits : roundScaled top num den < 2 ^ 16) :
    (BitVec.ofNat 16 (roundScaled k num den)).toNat < (BitVec.ofNat 16 (roundScaled m num den)).toNat := by
  have hlt := roundScaled_lt_roundScaled hden hfactor h
  have hle := (roundScaled_le_roundScaled hm num den).trans_lt hfits
  rw [BitVec.toNat_ofNat, BitVec.toNat_ofNat, Nat.mod_eq_of_lt hle, Nat.mod_eq_of_lt (hlt.trans hle)]
  exact hlt

theorem rawHumidity_eq_some_iff {rh : ℤ} {r : Word} :
    rawHumidity rh = some r ↔ 0 ≤ rh ∧ rh ≤ 100 ∧ r = BitVec.ofNat 16 (roundScaled rh.toNat rhNum rhDen) := by
  unfold rawHumidity rhMin rhMax
  split
  case isTrue h => exact iff_of_false nofun (by omega)
  case isFalse h =>
    rw [Option.some_inj, eq_comm, ← and_assoc]
    exact (and_iff_right (by omega)).symm

theorem rawTemperature_eq_some_iff {t : ℤ} {r : Word} :
    rawTemperature t = some r ↔ -45 ≤ t ∧ t ≤ 130 ∧ r = BitVec.ofNat 16 (roundScaled (t + 45).toNat tNum tDen) := by
  unfold rawTemperature tMin tMax tOffset
  split
  case isTrue h => exact iff_of_false nofun (by omega)
  case isFalse h =>
    rw [Option.some_inj, eq_comm, ← and_assoc]
    exact (and_iff_right (by omega)).symm

/-- A transform that clears `ERR` has a value, which is in `RAW`. -/
theorem State.setRaw_of_completes {s t : State} {r : Option Word} (ht : s.answer (s.setRaw r) = t) (hcause : t.err.cause = 0) :
    r = some t.raw := by
  subst ht
  cases r with
  | none => exact absurd hcause (causeCode_ne_zero .outOfRange)
  | some v => rfl

theorem rawHumidity_of_exec {val : Word} {s t : State} (ht : exec (.rawrh val) s = .next t) (hcause : t.err.cause = 0) :
    rawHumidity (twosComplement val) = some t.raw := by
  rw [exec_rawrh] at ht
  exact State.setRaw_of_completes (Host.Outcome.next.inj ht) hcause

theorem rawTemperature_of_exec {val : Word} {s t : State} (ht : exec (.rawt val) s = .next t) (hcause : t.err.cause = 0) :
    rawTemperature (twosComplement val) = some t.raw := by
  rw [exec_rawt] at ht
  exact State.setRaw_of_completes (Host.Outcome.next.inj ht) hcause

/-- The factor held to ten places rounds as 65535 / 175 does, for every operand of the range (R135). -/
theorem roundScaled_temperature : ∀ k, k < 176 → roundScaled k tNum tDen = roundScaled k 65535 175 := by
  decide +kernel

/-- Settles O26: both factors are at least one, and the temperature's rounds as the quotient it stands for. -/
theorem transformsAreStrictlyIncreasing : Obligations.TransformsAreStrictlyIncreasing := by
  refine ⟨fun a b s t u ht hu htc huc hlt => ?humidity, fun a b s t u ht hu htc huc hlt => ?temperature,
    fun a s t ht htc => ?quotient⟩
  case humidity =>
    obtain ⟨ha, -, hra⟩ := rawHumidity_eq_some_iff.mp (rawHumidity_of_exec ht htc)
    obtain ⟨-, hb, hrb⟩ := rawHumidity_eq_some_iff.mp (rawHumidity_of_exec hu huc)
    rw [hra, hrb]
    exact ofNat_roundScaled_lt (top := 100) (by decide) (by decide) (by omega) (by omega) (by decide)
  case temperature =>
    obtain ⟨ha, -, hra⟩ := rawTemperature_eq_some_iff.mp (rawTemperature_of_exec ht htc)
    obtain ⟨-, hb, hrb⟩ := rawTemperature_eq_some_iff.mp (rawTemperature_of_exec hu huc)
    rw [hra, hrb]
    exact ofNat_roundScaled_lt (top := 175) (by decide) (by decide) (by omega) (by omega) (by decide)
  case quotient =>
    obtain ⟨hmin, hmax, hr⟩ := rawTemperature_eq_some_iff.mp (rawTemperature_of_exec ht htc)
    obtain ⟨k, hk⟩ := Int.eq_ofNat_of_zero_le (show 0 ≤ twosComplement a + 45 by omega)
    have hshift : (twosComplement a : ℚ) + 45 = k := by exact_mod_cast hk
    rw [hr, hk, Int.toNat_natCast, roundScaled_temperature k (by omega),
      ofNat_roundScaled_toNat (m := 175) (by decide) (by omega) (by decide), hshift]
    simp only [Nat.cast_ofNat]

end Sys2Proof.Machine
end

section
/-! The wire commands: what a command does to the block apart from what it does on the host's side, and how it ends for each
answer of the transport; from that the statements of `44_sensor_commands.md` on the five commands (R144 to R152). -/

namespace Sys2Proof.Machine

/-! ### The table of the commands (R63, R101, R142) -/

/-- A wire command runs the common sequence with its code and compensation values, where it can start (R142). -/
theorem exec_of_wireParts {s : State} {sess : Session} (hs : s.session = some sess) (hm : s.midCommand sess = false)
    {code : Word} {params : Option (Word × Word)} : ∀ {i : Instr}, wireParts i = some (code, params) →
    exec i s = .next (s.command code params sess)
  | .getSerialNumber, rfl | .executeSelfTest, rfl | .executeConditioning _ _, rfl | .measureRawSignal _ _, rfl
  | .turnHeaterOff, rfl => State.withSession_next _ _ hs (.inr hm)

theorem Started.midCommand_eq_false {s : State} {sess : Session} (h : Started s sess) : s.midCommand sess = false := by
  rw [Bool.eq_false_iff, ne_eq, State.midCommand_iff]
  rintro ⟨hawaiting, hepoch⟩
  exact h.ready.elim (· hawaiting) (· hepoch)

theorem Started.exec_eq {s : State} {sess : Session} (h : Started s sess) {i : Instr} {code : Word}
    {params : Option (Word × Word)} (hi : wireParts i = some (code, params)) :
    exec i s = .next (s.command code params sess) :=
  exec_of_wireParts h.session h.midCommand_eq_false hi

theorem metadata_of_wireParts {code : Word} {params : Option (Word × Word)} {v : Variant} : ∀ {i : Instr},
    wireParts i = some (code, params) → hasCommand i v = true →
    metadata code v = .ok ⟨BitVec.ofNat 4 (3 * responseGroups i v), responseWait i v⟩
  | .getSerialNumber, rfl, _ => metadata_codeOfCommand .getSerialNumber v
  | .executeSelfTest, rfl, _ => metadata_codeOfCommand .executeSelfTest v
  | .executeConditioning _ _, rfl, hv => by
    obtain rfl := eq_of_beq hv
    exact metadata_codeOfCommand .executeConditioning .variant1
  | .measureRawSignal _ _, rfl, _ => by
    cases v with
    | variant0 => exact metadata_codeOfCommand .measureRawSignal .variant0
    | variant1 => exact metadata_codeOfCommand .measureRawSignal .variant1
  | .turnHeaterOff, rfl, _ => metadata_codeOfCommand .turnHeaterOff v

theorem responseGroups_le : ∀ (i : Instr) (v : Variant), responseGroups i v ≤ 3
  | .getSerialNumber, _ => Nat.le_refl 3
  | .executeSelfTest, _ | .executeConditioning _ _, _ | .measureRawSignal _ _, .variant0 => (by decide : 1 ≤ 3)
  | .measureRawSignal _ _, .variant1 => (by decide : 2 ≤ 3)
  | .turnHeaterOff, _ | .crcinit, _ | .crcupd _, _ | .resolve _ _, _ | .build _ _ _ _ _, _ | .parse _ _, _ | .rawrh _, _
  | .rawt _, _ | .rxwr _ _, _ | .txrd _, _ => Nat.zero_le 3

/-- The two heating commands leave the session `Measuring`, the others `Idle`. -/
theorem endState_codeOfCommand (cmd : WireCommand) : endState (codeOfCommand cmd) =
    if cmd = .executeConditioning ∨ cmd = .measureRawSignal then .measuring else .idle := by
  have hmeasure : codeOfCommand cmd = Config.cmdMeasureRaw ↔ cmd = .measureRawSignal :=
    codeOfCommand_inj (b := .measureRawSignal)
  have hcond : codeOfCommand cmd = Config.cmdConditioning ↔ cmd = .executeConditioning :=
    codeOfCommand_inj (b := .executeConditioning)
  simp only [endState, hmeasure, hcond, or_comm]

theorem endState_of_wireParts {code : Word} {params : Option (Word × Word)} : ∀ {i : Instr},
    wireParts i = some (code, params) → endState code = stateAfterSend i
  | .getSerialNumber, rfl => endState_codeOfCommand .getSerialNumber
  | .executeSelfTest, rfl => endState_codeOfCommand .executeSelfTest
  | .executeConditioning _ _, rfl => endState_codeOfCommand .executeConditioning
  | .measureRawSignal _ _, rfl => endState_codeOfCommand .measureRawSignal
  | .turnHeaterOff, rfl => endState_codeOfCommand .turnHeaterOff

/-- An instruction presented in a frame is a wire command. -/
theorem exists_wireParts_of_encode_frame {bytes : List Byte} : ∀ {i : Instr}, encode i = .frame bytes →
    ∃ code params, wireParts i = some (code, params) ∧ bytes = frameBytes code params
  | .getSerialNumber, h | .executeSelfTest, h | .executeConditioning _ _, h | .measureRawSignal _ _, h
  | .turnHeaterOff, h => ⟨_, _, rfl, (Presented.frame.inj h).symm⟩

/-! ### The block and the host's side of a command -/

/-- The state with its session and the model's own fields but `epoch` taken from `h`; the block and the results stay. -/
def State.withHost (s h : State) : State :=
  { s with
    session := h.session, inbox := h.inbox, exchanges := h.exchanges, draws := h.draws, sentEpoch := h.sentEpoch
    trace := h.trace }

/-- `PARSE` and the return read nothing of the host's side. -/
theorem State.parseAndReturn_withHost (s h : State) (last : Option Word) (sess : Session) (len : BitVec 4) :
    (s.withHost h).parseAndReturn last sess len = (s.parseAndReturn last sess len).withHost h := by
  have hrx : (s.withHost h).rxByte = s.rxByte := rfl
  simp only [State.parseAndReturn, State.parseFrame, hrx]
  cases parseResponse s.rxByte len sess.verify <;> rfl

theorem State.popExchange_exchanges (s : State) : s.popExchange.exchanges = s.exchanges.tail := by
  unfold State.popExchange
  split <;> rename_i h <;> rw [h] <;> rfl

theorem State.popExchange_draws (s : State) : s.popExchange.draws = if s.exchanges = [] then s.draws + 1 else s.draws := by
  unfold State.popExchange
  split <;> rename_i h <;> rw [h] <;> rfl

/-- Taking an answer off changes the two fields that hold the answers, by those two alone. -/
theorem State.popExchange_of_eq {s t : State} (hx : t.exchanges = s.exchanges) (hd : t.draws = s.draws) :
    t.popExchange = { t with exchanges := s.popExchange.exchanges, draws := s.popExchange.draws } := by
  rw [t.popExchange_eq, t.popExchange_exchanges, t.popExchange_draws, hx, hd, s.popExchange_exchanges, s.popExchange_draws]

/-- The host's side after a command whose transport calls succeeded: the frame written, the wait, and the read where the
response has bytes (R151, R202). -/
def State.exchanged (s : State) (c : Word) (p : Option (Word × Word)) (m : Metadata) (sess : Session) : State :=
  { s with
    session := some { sess with lastCmd := some c, sstate := endState c }
    exchanges := s.popExchange.exchanges
    draws := s.popExchange.draws
    sentEpoch := s.epoch
    trace := s.trace ++ [.write sess.addr (frameBytes c p) true, .wait m.wait] ++
      if m.len = 0 then [] else [.read sess.addr m.len (some (s.nextExchange.bytes.toList.take m.len.toNat))] }

/-- The block after the requests before the `PARSE`: the frame built and read out, the answer stored in `RX` (R151). -/
def State.loaded (s : State) (c : Word) (p : Option (Word × Word)) (m : Metadata) : State :=
  (s.prepare c p m).loadRx (s.nextExchange.bytes.toList.take m.len.toNat)

/-- The state after the write and the wait, field by field. -/
theorem State.sent_eq (s : State) (c : Word) (p : Option (Word × Word)) (m : Metadata) (sess : Session) :
    s.sent c p m sess = (s.prepare c p m).withHost { s with
      session := some { sess with lastCmd := some c, sstate := endState c }
      exchanges := s.popExchange.exchanges
      draws := s.popExchange.draws
      sentEpoch := s.epoch
      trace := s.trace ++ [.write sess.addr (frameBytes c p) true, .wait m.wait] } := by
  have hx : (s.prepare c p m).exchanges = s.exchanges := by rw [State.prepare_eq]
  have hd : (s.prepare c p m).draws = s.draws := by rw [State.prepare_eq]
  have htrace : s.trace ++ [BusEvent.write sess.addr (frameBytes c p) true, .wait m.wait] =
      s.trace ++ [.write sess.addr (frameBytes c p) true] ++ [.wait m.wait] := by
    rw [List.append_assoc]
    rfl
  rw [htrace, State.sent, State.popExchange_of_eq hx hd, State.prepare_eq]
  rfl

/-- A command whose transport calls succeed, up to the `PARSE`. -/
theorem State.command_of_answered {s : State} {c : Word} {p : Option (Word × Word)} {m : Metadata} {sess : Session}
    (hm : metadata c sess.variant = .ok m) (hw : s.nextExchange.writeOk = true)
    (hr : m.len ≠ 0 → s.nextExchange.readOk = true) :
    s.command c p sess = ((s.loaded c p m).withHost (s.exchanged c p m sess)).parseAndReturn (some c) sess m.len := by
  obtain ⟨f, hf, -⟩ | ⟨m', hm', hend⟩ := s.command_cases c p sess
  · rw [hm] at hf
    cases hf
  obtain rfl := Except.ok.inj (hm.symm.trans hm')
  obtain ⟨hfail, -⟩ | ⟨-, hempty, hcommand⟩ | ⟨-, hlen, hfail, -⟩ | ⟨-, hlen, -, hcommand⟩ := hend
  · rw [hw] at hfail
    cases hfail
  · have hbytes : s.nextExchange.bytes.toList.take m.len.toNat = [] := by rw [hempty]; rfl
    rw [hcommand, State.sent_eq, State.loaded, State.exchanged, hbytes, if_pos hempty, List.append_nil, State.prepare_eq]
    rfl
  · rw [hr hlen] at hfail
    cases hfail
  · rw [hcommand, State.sent_eq, State.loaded, State.exchanged, if_neg hlen]
    rfl

/-! ### The answer in `RX` (R34, R64) -/

/-- The bytes a read fills in are the first bytes of the answer. -/
theorem take_bytes_eq (x : Exchange) {k : Nat} (hk : k ≤ 9) :
    x.bytes.toList.take k = (List.range k).map (answerByte x) := by
  have hlen : x.bytes.toList.length = 9 := x.bytes.length_toList
  apply List.ext_getElem
  · rw [List.length_take, List.length_map, List.length_range, hlen, Nat.min_eq_left hk]
  · intro i h1 h2
    rw [List.length_take, hlen] at h1
    have hi : i < x.bytes.toList.length := by omega
    rw [List.getElem_take, List.getElem_map, List.getElem_range, answerByte, List.getElem?_eq_getElem hi, Option.getD_some]

/-- What `RX` holds after the first `k` bytes of an answer were stored. -/
theorem State.loadRx_answer_rxByte (s : State) (x : Exchange) {k : Nat} (hk : k ≤ 9) (j : Nat) :
    (s.loadRx (x.bytes.toList.take k)).rxByte j = if j < k then answerByte x j else s.rxByte j := by
  rw [State.loadRx_rxByte, take_bytes_eq x hk, List.getElem?_map]
  split
  case isTrue hj => rw [List.getElem?_range hj]; rfl
  case isFalse hj => rw [List.getElem?_eq_none (by simpa using hj)]; rfl

theorem State.prepare_rxByte (s : State) (c : Word) (p : Option (Word × Word)) (m : Metadata) :
    (s.prepare c p m).rxByte = s.rxByte := by rw [State.prepare_eq]; rfl

section
variable {n : Nat} (hn : n ≤ 3)
include hn

theorem toNat_length_of_groups : (BitVec.ofNat 4 (3 * n)).toNat = 3 * n := by
  rw [BitVec.toNat_ofNat]
  omega

theorem length_of_groups_eq_zero_iff : BitVec.ofNat 4 (3 * n) = 0 ↔ n = 0 := by
  rw [← BitVec.toNat_inj, toNat_length_of_groups hn]
  exact ⟨fun h => by simpa using h, fun h => by rw [h]; rfl⟩

/-- `RX` after the answer of `n` groups was stored. -/
theorem State.loaded_rxByte (s : State) (c : Word) (p : Option (Word × Word)) (ms : Word) (j : Nat) :
    (s.loaded c p ⟨BitVec.ofNat 4 (3 * n), ms⟩).rxByte j =
      if j < 3 * n then answerByte s.nextExchange j else s.rxByte j := by
  rw [State.loaded, toNat_length_of_groups hn, State.loadRx_answer_rxByte _ _ (by omega), State.prepare_rxByte]

section
variable (s : State) (c : Word) (p : Option (Word × Word)) (ms : Word) {i : Nat} (hi : i < n)
include hi

theorem State.loaded_rxGroup :
    (s.loaded c p ⟨BitVec.ofNat 4 (3 * n), ms⟩).rxGroup i = answerWord s.nextExchange i := by
  rw [State.rxGroup, State.loaded_rxByte hn, State.loaded_rxByte hn, if_pos (by omega), if_pos (by omega), answerWord]

theorem State.loaded_rxStored :
    (s.loaded c p ⟨BitVec.ofNat 4 (3 * n), ms⟩).rxStored i = answerByte s.nextExchange (3 * i + 2) := by
  rw [State.rxStored, State.loaded_rxByte hn, if_pos (by omega)]

theorem State.loaded_rxComputed : (s.loaded c p ⟨BitVec.ofNat 4 (3 * n), ms⟩).rxComputed i =
    crc8 [answerByte s.nextExchange (3 * i), answerByte s.nextExchange (3 * i + 1)] := by
  rw [State.rxComputed, State.loaded_rxByte hn, State.loaded_rxByte hn, if_pos (by omega), if_pos (by omega)]

/-- A group in `RX` is intact where the answer's group is (R64). -/
theorem State.loaded_intact_iff :
    (s.loaded c p ⟨BitVec.ofNat 4 (3 * n), ms⟩).rxStored i = (s.loaded c p ⟨BitVec.ofNat 4 (3 * n), ms⟩).rxComputed i ↔
      answerIntact s.nextExchange i := by
  rw [State.loaded_rxStored hn s c p ms hi, State.loaded_rxComputed hn s c p ms hi, answerIntact, eq_comm]

end

/-! ### `PARSE` and the return (R151 steps 7 and 8) -/

theorem State.parseAndReturn_of_intact {s : State} {last : Option Word} {sess : Session}
    (h : sess.verify = true → ∀ i, i < n → s.rxStored i = s.rxComputed i) :
    s.parseAndReturn last sess (BitVec.ofNat 4 (3 * n)) = (s.setGroups ((List.range' 0 n).map s.rxEntry)).complete.returns
      (viewOf last sess.variant ((List.range' 0 n).map s.rxGroup)) := by
  have hgroups : parseResponse s.rxByte (BitVec.ofNat 4 (3 * n)) sess.verify = .ok ((List.range' 0 n).map s.rxEntry) := by
    rw [parseResponse_of_groups hn (toNat_length_of_groups hn)]
    exact decodeGroups_of_intact fun hver j _ hj => h hver j (by omega)
  obtain ⟨gs, hgs, hreturn⟩ | ⟨f, hf, -⟩ := s.parseAndReturn_cases last sess (BitVec.ofNat 4 (3 * n))
  · obtain rfl := Except.ok.inj (hgroups.symm.trans hgs)
    rw [hreturn, List.map_map]
    rfl
  · rw [hgroups] at hf
    cases hf

theorem State.parseAndReturn_of_first_corrupt {s : State} {last : Option Word} {sess : Session} {k : Nat} (hk : k < n)
    (hver : sess.verify = true) (hbefore : ∀ j, j < k → s.rxStored j = s.rxComputed j)
    (hcorrupt : s.rxStored k ≠ s.rxComputed k) :
    s.parseAndReturn last sess (BitVec.ofNat 4 (3 * n)) =
      (s.takeFault (s.rxMismatch k)).returns (.failed (.block (s.rxMismatch k))) := by
  have hfault : parseResponse s.rxByte (BitVec.ofNat 4 (3 * n)) sess.verify = .error (s.rxMismatch k) := by
    rw [hver, parseResponse_of_groups hn (toNat_length_of_groups hn)]
    exact decodeGroups_of_first_corrupt k.zero_le (by omega) (fun j _ => hbefore j) hcorrupt
  obtain ⟨gs, hgs, -⟩ | ⟨f, hf, hreturn⟩ := s.parseAndReturn_cases last sess (BitVec.ofNat 4 (3 * n))
  · rw [hfault] at hgs
    cases hgs
  · obtain rfl := Except.error.inj (hfault.symm.trans hf)
    exact hreturn

end

/-! ### A completed command (R151) -/

theorem State.loaded_txByte (s : State) (c : Word) (p : Option (Word × Word)) (m : Metadata) (j : Nat) :
    (s.loaded c p m).txByte j = ((frameBytes c p)[j]?).getD (s.txByte j) := by
  rw [State.loaded, State.prepare_eq]
  exact Memory.getD_find?_store ..

/-- The requests before the `PARSE` change these registers of the block and nothing else. -/
theorem State.loaded_eq (s : State) (c : Word) (p : Option (Word × Word)) (m : Metadata) : s.loaded c p m = { s with
    len := m.len, wait := m.wait, tx := (s.loaded c p m).tx, txlen := BitVec.ofNat 4 (frameBytes c p).length
    rx := (s.loaded c p m).rx, rdata := ((frameBytes c p).getLast?).getD 0, err := Err.clear } := by
  rw [State.loaded, State.prepare_eq]
  rfl

/-- The transport calls of a command whose response has `n` groups. -/
theorem State.exchanged_eq (s : State) (c : Word) (p : Option (Word × Word)) {n : Nat} (hn : n ≤ 3) (ms : Word)
    (sess : Session) : s.exchanged c p ⟨BitVec.ofNat 4 (3 * n), ms⟩ sess = { s with
      session := some { sess with lastCmd := some c, sstate := endState c }
      exchanges := s.popExchange.exchanges
      draws := s.popExchange.draws
      sentEpoch := s.epoch
      trace := s.trace ++ [.write sess.addr (frameBytes c p) true, .wait ms] ++ if n = 0 then [] else
        [.read sess.addr (BitVec.ofNat 4 (3 * n)) (some ((List.range (3 * n)).map (answerByte s.nextExchange)))] } := by
  simp only [State.exchanged, length_of_groups_eq_zero_iff hn, toNat_length_of_groups hn,
    take_bytes_eq s.nextExchange (show 3 * n ≤ 9 by omega)]

theorem State.rxEntry_snd (s : State) (i : Nat) : (s.rxEntry i).2 = true ↔ s.rxStored i = s.rxComputed i := by
  rw [State.rxEntry, decide_eq_true_iff, eq_comm]

/-- The block after a completed command: the groups of the answer stored. -/
def State.delivered (s : State) (c : Word) (p : Option (Word × Word)) (n : Nat) (ms : Word) : State :=
  let l := s.loaded c p ⟨BitVec.ofNat 4 (3 * n), ms⟩
  (l.setGroups ((List.range' 0 n).map l.rxEntry)).complete

section
variable {s : State} {sess : Session} {c : Word} {p : Option (Word × Word)} {n : Nat} (hn : n ≤ 3) {ms : Word}
include hn

/-- A command that completes has delivered its groups, exchanged its frame and answer, and returned the view of its words. -/
theorem State.command_of_answers (hm : metadata c sess.variant = .ok ⟨BitVec.ofNat 4 (3 * n), ms⟩)
    (hw : s.nextExchange.writeOk = true) (hr : n ≠ 0 → s.nextExchange.readOk = true)
    (hv : sess.verify = true → ∀ i, i < n → answerIntact s.nextExchange i) :
    s.command c p sess = ((s.delivered c p n ms).returns
      (viewOf (some c) sess.variant ((List.range' 0 n).map (answerWord s.nextExchange)))).withHost
        (s.exchanged c p ⟨BitVec.ofNat 4 (3 * n), ms⟩ sess) := by
  have hr' : BitVec.ofNat 4 (3 * n) ≠ 0 → s.nextExchange.readOk = true :=
    fun h => hr (mt (length_of_groups_eq_zero_iff hn).mpr h)
  have hintact (hver : sess.verify = true) (i : Nat) (hi : i < n) :=
    (s.loaded_intact_iff hn c p ms hi).mpr (hv hver i hi)
  have hwords : (List.range' 0 n).map (s.loaded c p ⟨BitVec.ofNat 4 (3 * n), ms⟩).rxGroup =
      (List.range' 0 n).map (answerWord s.nextExchange) :=
    List.map_congr_left fun i hi => s.loaded_rxGroup hn c p ms (by simpa using hi)
  rw [State.command_of_answered hm hw hr', State.parseAndReturn_withHost, State.parseAndReturn_of_intact hn hintact, hwords]
  rfl

theorem State.delivered_d_getElem (i : Fin 3) :
    (s.delivered c p n ms).d[i] = if i.val < n then answerWord s.nextExchange i else s.d[i] := by
  rw [State.delivered, State.complete_d, State.setGroups_d_getElem, State.rxEntries_getElem?]
  split
  case isTrue hi => exact s.loaded_rxGroup hn c p ms hi
  case isFalse => rw [State.loaded_eq]; rfl

theorem State.delivered_ok_getElem (i : Fin 3) :
    (s.delivered c p n ms).ok[i] = true ↔ if i.val < n then answerIntact s.nextExchange i else s.ok[i] = true := by
  rw [State.delivered, State.complete_ok, State.setGroups_ok_getElem, State.rxEntries_getElem?]
  split
  case isTrue hi =>
    exact (State.rxEntry_snd ..).trans (s.loaded_intact_iff hn c p ms hi)
  case isFalse => rw [State.loaded_eq]; rfl

theorem commandDone_of_delivered (r : HostResult) :
    CommandDone s (((s.delivered c p n ms).returns r).withHost (s.exchanged c p ⟨BitVec.ofNat 4 (3 * n), ms⟩ sess)) c
      (frameBytes c p) n ms sess s.nextExchange (endState c) where
  tx := s.loaded_txByte c p _
  rx := s.loaded_rxByte hn c p ms
  data := State.delivered_d_getElem hn
  okBits := State.delivered_ok_getElem hn
  rest := by
    have hngrp : (s.delivered c p n ms).ngrp = BitVec.ofNat 2 n := by
      rw [State.delivered, State.complete_ngrp, State.setGroups_ngrp, List.length_map, List.length_range']
    rw [State.exchanged_eq s c p hn, ← hngrp]
    simp only [State.delivered]
    rw [State.loaded_eq]
    rfl

end

/-- What the obligations ask of a wire command that completes. -/
theorem exec_of_answers {s : State} {sess : Session} {x : Exchange} {i : Instr} {c : Word} {p : Option (Word × Word)}
    (hi : wireParts i = some (c, p)) (hv : hasCommand i sess.variant = true)
    (h : Answers s sess x (responseGroups i sess.variant)) :
    ∃ t, exec i s = .next t ∧ t.results = s.results ++ [viewOf (some c) sess.variant
        ((List.range' 0 (responseGroups i sess.variant)).map (answerWord x))] ∧
      CommandDone s t c (frameBytes c p) (responseGroups i sess.variant) (responseWait i sess.variant) sess x
        (stateAfterSend i) := by
  obtain ⟨hstarted, rfl, hwritten, hreceived, hverified⟩ := h
  have hn := responseGroups_le i sess.variant
  have hm := metadata_of_wireParts hi hv
  refine ⟨_, hstarted.exec_eq hi, ?_, ?_⟩
  · rw [State.command_of_answers hn hm hwritten (fun _ => hreceived) hverified]
    simp only [State.delivered]
    rw [State.loaded_eq]
    rfl
  · rw [State.command_of_answers hn hm hwritten (fun _ => hreceived) hverified, ← endState_of_wireParts hi]
    exact commandDone_of_delivered hn _

/-! ### The typed views (R121 to R124) -/

theorem viewOf_codeOfCommand (cmd : WireCommand) (v : Variant) (words : List Word) :
    viewOf (some (codeOfCommand cmd)) v words = typedView cmd v words := by
  rw [viewOf, Option.bind_some, commandOfCode_codeOfCommand]

/-- Settles O39: three words, which the view gives in wire order. -/
theorem getSerialNumberReturnsThreeWords : Obligations.GetSerialNumberReturnsThreeWords := by
  intro s sess x h
  obtain ⟨t, ht, hresults, hdone⟩ := exec_of_answers (i := .getSerialNumber) rfl rfl h
  have hview : t.results = s.results ++ [.serialNumber (answerWord x 0) (answerWord x 1) (answerWord x 2)] :=
    hresults.trans (congrArg (s.results ++ [·]) (viewOf_codeOfCommand .getSerialNumber ..))
  refine ⟨t, ht, hview, ?_, hdone⟩
  have h0 : t.d[0] = answerWord x 0 := hdone.data 0
  have h1 : t.d[1] = answerWord x 1 := hdone.data 1
  have h2 : t.d[2] = answerWord x 2 := hdone.data 2
  rw [hview, h0, h1, h2]

/-- Settles O40: one word, which the view gives, and the reading of it. -/
theorem selfTestReturnsItsCode : Obligations.SelfTestReturnsItsCode := by
  refine ⟨fun s sess x h => ?_, fun code => beq_iff_eq⟩
  obtain ⟨t, ht, hresults, hdone⟩ := exec_of_answers (i := .executeSelfTest) rfl rfl h
  have hview : t.results = s.results ++ [.selfTest (answerWord x 0)] :=
    hresults.trans (congrArg (s.results ++ [·]) (viewOf_codeOfCommand .executeSelfTest ..))
  have h0 : t.d[0] = answerWord x 0 := hdone.data 0
  exact ⟨t, ht, hview, by rw [hview, h0], by rw [hdone.rest]; rfl, hdone⟩

/-- Settles O41: one word on Variant1, which the view gives as VOC. -/
theorem conditioningReturnsVoc : Obligations.ConditioningReturnsVoc := by
  intro s sess x rh t h hvar
  obtain ⟨u, hu, hresults, hdone⟩ :=
    exec_of_answers (i := .executeConditioning rh t) rfl (by rw [hasCommand, hvar, beq_self_eq_true]) h
  refine ⟨u, hu, ?_, hdone⟩
  rw [hresults, hvar]
  exact congrArg (s.results ++ [·]) (viewOf_codeOfCommand .executeConditioning ..)

/-- Settles O42: one word on Variant0 and two on Variant1, which the view gives as VOC and NOx. -/
theorem measureReturnsVocAndNox : Obligations.MeasureReturnsVocAndNox := by
  refine fun s sess x rh t => ⟨fun hvar h => ?_, fun hvar h => ?_⟩
  · have hgroups : responseGroups (.measureRawSignal rh t) sess.variant = 1 := by rw [hvar]; rfl
    have hwait : responseWait (.measureRawSignal rh t) sess.variant = 30 := by rw [hvar]; rfl
    obtain ⟨u, hu, hresults, hdone⟩ := exec_of_answers (i := .measureRawSignal rh t) rfl rfl (hgroups ▸ h)
    rw [hgroups] at hresults hdone
    rw [hwait] at hdone
    refine ⟨u, hu, ?_, hdone⟩
    rw [hresults, hvar]
    exact congrArg (s.results ++ [·]) (viewOf_codeOfCommand .measureRawSignal ..)
  · have hgroups : responseGroups (.measureRawSignal rh t) sess.variant = 2 := by rw [hvar]; rfl
    have hwait : responseWait (.measureRawSignal rh t) sess.variant = 50 := by rw [hvar]; rfl
    obtain ⟨u, hu, hresults, hdone⟩ := exec_of_answers (i := .measureRawSignal rh t) rfl rfl (hgroups ▸ h)
    rw [hgroups] at hresults hdone
    rw [hwait] at hdone
    refine ⟨u, hu, ?_, hdone⟩
    rw [hresults, hvar]
    exact congrArg (s.results ++ [·]) (viewOf_codeOfCommand .measureRawSignal ..)

end Sys2Proof.Machine
end

section
/-! How a wire command ends where a transport call fails or a group of the answer is corrupt, and how it is made of the requests
of the common sequence (R151, R152); from that the remaining statements of `44_sensor_commands.md` on the wire commands. -/

namespace Sys2Proof.Machine

/-! ### The three ways a command with metadata ends (R151, R152) -/

/-- The host's side where the write failed: nothing but the answer used up and the attempt (R152). -/
def State.writeFailed (s : State) (c : Word) (p : Option (Word × Word)) (sess : Session) : State :=
  { s with
    exchanges := s.popExchange.exchanges
    draws := s.popExchange.draws
    trace := s.trace ++ [.write sess.addr (frameBytes c p) false] }

/-- The host's side where the frame was written and the read failed (R152). -/
def State.readFailed (s : State) (c : Word) (p : Option (Word × Word)) (m : Metadata) (sess : Session) : State :=
  { s with
    session := some { sess with lastCmd := some c, sstate := endState c }
    exchanges := s.popExchange.exchanges
    draws := s.popExchange.draws
    sentEpoch := s.epoch
    trace := s.trace ++ [.write sess.addr (frameBytes c p) true, .wait m.wait] ++ [.read sess.addr m.len none] }

section
variable {s : State} {sess : Session} {c : Word} {p : Option (Word × Word)} {m : Metadata}
  (hm : metadata c sess.variant = .ok m)
include hm

theorem State.command_of_write_fails (hw : s.nextExchange.writeOk = false) :
    s.command c p sess = ((s.prepare c p m).withHost (s.writeFailed c p sess)).returns (.failed .busError) := by
  obtain ⟨f, hf, -⟩ | ⟨m', hm', hend⟩ := s.command_cases c p sess
  · rw [hm] at hf
    cases hf
  obtain rfl := Except.ok.inj (hm.symm.trans hm')
  obtain ⟨-, hcommand⟩ | ⟨hok, -⟩ | ⟨hok, -⟩ | ⟨hok, -⟩ := hend
  · have hx : (s.prepare c p m).exchanges = s.exchanges := by rw [State.prepare_eq]
    have hd : (s.prepare c p m).draws = s.draws := by rw [State.prepare_eq]
    rw [hcommand, State.popExchange_of_eq hx hd, State.prepare_eq]
    rfl
  all_goals
    rw [hw] at hok
    cases hok

theorem State.command_of_read_fails (hw : s.nextExchange.writeOk = true) (hlen : m.len ≠ 0)
    (hr : s.nextExchange.readOk = false) :
    s.command c p sess = ((s.prepare c p m).withHost (s.readFailed c p m sess)).returns (.failed .busError) := by
  obtain ⟨f, hf, -⟩ | ⟨m', hm', hend⟩ := s.command_cases c p sess
  · rw [hm] at hf
    cases hf
  obtain rfl := Except.ok.inj (hm.symm.trans hm')
  obtain ⟨hfail, -⟩ | ⟨-, hempty, -⟩ | ⟨-, -, -, hcommand⟩ | ⟨-, -, hok, -⟩ := hend
  · rw [hw] at hfail
    cases hfail
  · exact absurd hempty hlen
  · rw [hcommand, State.sent_eq]
    rfl
  · rw [hr] at hok
    cases hok

/-- A command with metadata fails at the write, fails at the read, or parses the answer. -/
theorem State.command_ends (p : Option (Word × Word)) :
    (s.nextExchange.writeOk = false ∧
      s.command c p sess = ((s.prepare c p m).withHost (s.writeFailed c p sess)).returns (.failed .busError)) ∨
    (s.nextExchange.writeOk = true ∧
      s.command c p sess = ((s.prepare c p m).withHost (s.readFailed c p m sess)).returns (.failed .busError)) ∨
    (s.nextExchange.writeOk = true ∧ s.command c p sess =
      ((s.loaded c p m).parseAndReturn (some c) sess m.len).withHost (s.exchanged c p m sess)) := by
  cases hw : s.nextExchange.writeOk with
  | false => exact .inl ⟨rfl, State.command_of_write_fails hm hw⟩
  | true =>
    by_cases hr : m.len ≠ 0 → s.nextExchange.readOk = true
    · exact .inr (.inr ⟨rfl, by rw [State.command_of_answered hm hw hr, State.parseAndReturn_withHost]⟩)
    · obtain ⟨hlen, hfail⟩ := Classical.not_imp.mp hr
      exact .inr (.inl ⟨rfl, State.command_of_read_fails hm hw hlen (Bool.eq_false_of_not_eq_true hfail)⟩)

/-- The first transport event of a command is the write of its frame to the session's address. -/
theorem State.command_trace (p : Option (Word × Word)) : ∃ rest, (s.command c p sess).trace =
    s.trace ++ .write sess.addr (frameBytes c p) s.nextExchange.writeOk :: rest := by
  obtain ⟨hw, h⟩ | ⟨hw, h⟩ | ⟨hw, h⟩ := State.command_ends hm p
  · exact ⟨_, by rw [h, hw]; rfl⟩
  · exact ⟨_, by rw [h, hw]; exact List.append_assoc ..⟩
  · exact ⟨_, by rw [h, hw]; exact List.append_assoc ..⟩

/-- Once its frame is written, a command leaves the session in its end state. -/
theorem State.command_session (p : Option (Word × Word)) (hw : s.nextExchange.writeOk = true) :
    (s.command c p sess).session = some { sess with lastCmd := some c, sstate := endState c } := by
  obtain ⟨hfail, -⟩ | ⟨-, h⟩ | ⟨-, h⟩ := State.command_ends hm p
  · rw [hw] at hfail
    cases hfail
  · rw [h]
    rfl
  · rw [h]
    rfl

end

/-- Settles O45: the encoding of a wire command is its frame, which is written first. -/
theorem sentFrameIsTheEncoding : Obligations.SentFrameIsTheEncoding := by
  intro s sess i bytes h hi hv
  obtain ⟨code, params, hparts, rfl⟩ := exists_wireParts_of_encode_frame hi
  obtain ⟨rest, htrace⟩ := State.command_trace (metadata_of_wireParts hparts hv) (s := s) params
  exact ⟨_, rest, h.exec_eq hparts, htrace⟩

/-- Settles O46: the end state of a written command is that of the table. -/
theorem sentCommandSetsTheSessionState : Obligations.SentCommandSetsTheSessionState := by
  intro s sess i code params h hi hv hw
  refine ⟨_, h.exec_eq hi, ?_⟩
  rw [State.command_session (metadata_of_wireParts hi hv) params hw, endState_of_wireParts hi]

/-- Settles O47: the two ends with a failing transport call, field by field. -/
theorem busErrorsReachTheCaller : Obligations.BusErrorsReachTheCaller := by
  intro s sess i code params h hi hv
  have hm := metadata_of_wireParts hi hv
  refine ⟨fun hw => ⟨_, h.exec_eq hi, ?_⟩, fun hw hr hgroups => ⟨_, h.exec_eq hi, ?_⟩⟩
  · rw [State.command_of_write_fails hm hw, State.prepare_eq]
    exact ⟨rfl, rfl, rfl, fun _ => rfl, rfl, rfl, rfl⟩
  · have hlen := mt (length_of_groups_eq_zero_iff (responseGroups_le i sess.variant)).mp hgroups
    rw [State.command_of_read_fails hm hw hlen hr, State.prepare_eq, ← endState_of_wireParts hi]
    exact ⟨rfl, rfl, List.append_assoc .., fun _ => rfl, rfl, rfl, rfl⟩

/-- Settles O48: the groups in `RX` are those of the answer, and `PARSE` reports the first corrupt one. -/
theorem corruptAnswersAreReported : Obligations.CorruptAnswersAreReported := by
  intro s sess i code params k h hi hv hw hr hverify hk hbefore hcorrupt stored computed
  have hn := responseGroups_le i sess.variant
  have hintact (j : Nat) (hj : j ≤ k) := s.loaded_intact_iff hn code params (responseWait i sess.variant) (hj.trans_lt hk)
  have hcommand := State.command_of_answered (p := params) (metadata_of_wireParts hi hv) hw fun _ => hr
  rw [State.parseAndReturn_withHost, State.parseAndReturn_of_first_corrupt hn hk hverify
    (fun j hj => (hintact j hj.le).mpr (hbefore j hj)) (mt (hintact k le_rfl).mp hcorrupt), State.rxMismatch,
    s.loaded_rxStored hn code params _ hk, s.loaded_rxComputed hn code params _ hk, State.loaded_eq] at hcommand
  refine ⟨_, h.exec_eq hi, ?_⟩
  rw [hcommand, ← endState_of_wireParts hi]
  exact ⟨rfl, rfl, rfl, rfl, rfl, rfl⟩

/-- Settles O49: the lookup fault ends the command in the state it started in. -/
theorem unsupportedConditioningIsNeverSent : Obligations.UnsupportedConditioningIsNeverSent := by
  intro s sess rh t h hvar
  have hm : metadata Config.cmdConditioning sess.variant = .error .unsupportedOnVariant := by
    rw [hvar]
    exact metadata_codeOfCommand .executeConditioning .variant0
  rw [h.exec_eq (i := .executeConditioning rh t) rfl, State.command, hm]
  rfl

/-! ### The heater (R148, R153) -/

theorem heaterMayBeOn_append (before after : List BusEvent) :
    heaterMayBeOn (before ++ after) = after.foldl heatAfter (heaterMayBeOn before) :=
  List.foldl_append

theorem heatAfter_of_cooling {bytes : List Byte} (h : coolingFrame bytes = true) (on : Bool) (addr : BitVec 7) (ok : Bool) :
    heatAfter on (.write addr bytes ok) = (on && !ok) :=
  if_pos h

theorem coolingFrame_heaterOff : coolingFrame (frameBytes Config.cmdHeaterOff none) = true :=
  beq_self_eq_true _

/-- Settles O43: turn-heater-off starts in every session state, has no response, and its write alone decides about the session
and the heater. -/
theorem heaterOffWorksFromAnyState : Obligations.HeaterOffWorksFromAnyState := by
  intro s sess hs
  have hexec : exec .turnHeaterOff s = .next (s.command Config.cmdHeaterOff none sess) :=
    State.withSession_next true _ hs (.inl rfl)
  have hm : metadata Config.cmdHeaterOff sess.variant = .ok ⟨BitVec.ofNat 4 (3 * 0), 1⟩ :=
    metadata_of_wireParts (i := .turnHeaterOff) rfl rfl
  refine ⟨fun hw => ⟨_, hexec, ?results, ?cold, ?done⟩, fun hw => ⟨_, hexec, ?_⟩⟩
  case results =>
    rw [State.command_of_answers (by decide) hm hw (absurd rfl) nofun, State.delivered, State.loaded_eq]
    exact congrArg (s.results ++ [·]) (viewOf_codeOfCommand .turnHeaterOff ..)
  case cold =>
    have htrace : (s.command Config.cmdHeaterOff none sess).trace =
        s.trace ++ [.write sess.addr (frameBytes Config.cmdHeaterOff none) true, .wait 1] := by
      rw [State.command_of_answers (by decide) hm hw (absurd rfl) nofun]
      exact List.append_nil _
    rw [htrace, heaterMayBeOn_append, List.foldl_cons, heatAfter_of_cooling coolingFrame_heaterOff, Bool.not_true,
      Bool.and_false]
    rfl
  case done =>
    have hend : endState Config.cmdHeaterOff = .idle := endState_codeOfCommand .turnHeaterOff
    rw [State.command_of_answers (by decide) hm hw (absurd rfl) nofun, ← hend]
    exact commandDone_of_delivered (by decide) _
  case _ =>
    rw [State.command_of_write_fails hm hw, State.prepare_eq]
    refine ⟨rfl, rfl, ?_⟩
    change heaterMayBeOn (s.trace ++ [.write sess.addr (frameBytes Config.cmdHeaterOff none) false]) = _
    rw [heaterMayBeOn_append, List.foldl_cons, heatAfter_of_cooling coolingFrame_heaterOff, Bool.not_false, Bool.and_true]
    rfl

/-! ### The requests of the common sequence (R151) -/

/-- The rows of the table of R101, length and wait. -/
def metadataRows : List (BitVec 4 × Word) := [(0, 1), (3, 320), (3, 50), (3, 30), (6, 50), (9, 1)]

theorem metadataTable_mem_rows {m : Metadata} : ∀ {cmd : WireCommand} {v : Variant}, metadataTable cmd v = .ok m →
    (m.len, m.wait) ∈ metadataRows
  | .turnHeaterOff, _, rfl | .executeSelfTest, _, rfl | .executeConditioning, .variant1, rfl
  | .measureRawSignal, .variant0, rfl | .measureRawSignal, .variant1, rfl | .getSerialNumber, _, rfl => by decide

/-- No response is longer than `RX`. -/
theorem metadataTable_len_le {m : Metadata} : ∀ {cmd : WireCommand} {v : Variant}, metadataTable cmd v = .ok m →
    m.len.toNat ≤ rxCap
  | .turnHeaterOff, _, rfl | .executeSelfTest, _, rfl | .executeConditioning, .variant1, rfl
  | .measureRawSignal, .variant0, rfl | .measureRawSignal, .variant1, rfl | .getSerialNumber, _, rfl => by decide

/-- The metadata of a code is the entry of its command. -/
theorem exists_entry_of_metadata {code : Word} {v : Variant} {m : Metadata} (hm : metadata code v = .ok m) :
    ∃ cmd, metadataTable cmd v = .ok m := by
  unfold metadata at hm
  split at hm
  case h_1 => cases hm
  case h_2 cmd _ => exact ⟨cmd, hm⟩

theorem metadata_mem_rows {code : Word} {v : Variant} {m : Metadata} (hm : metadata code v = .ok m) :
    (m.len, m.wait) ∈ metadataRows :=
  (exists_entry_of_metadata hm).elim fun _ => metadataTable_mem_rows

theorem metadata_len_le {code : Word} {v : Variant} {m : Metadata} (hm : metadata code v = .ok m) : m.len.toNat ≤ rxCap :=
  (exists_entry_of_metadata hm).elim fun _ => metadataTable_len_le

/-- A `RESOLVE` that clears `ERR` has found an entry. -/
theorem metadata_of_resolve {code : Word} {v : Variant} {s r : State} (hr : exec (.resolve code v) s = .next r)
    (hcause : r.err.cause = 0) : ∃ m, metadata code v = .ok m ∧ r = (s.setMetadata m).complete := by
  rw [exec_resolve] at hr
  obtain rfl := Host.Outcome.next.inj hr
  cases hm : metadata code v with
  | ok m => exact ⟨m, rfl, rfl⟩
  | error f =>
    rw [hm] at hcause
    exact absurd ((errOfFault_cause f).symm.trans hcause) (causeCode_ne_zero f)

/-- The request that builds a command's frame. -/
def buildOf (code : Word) : Option (Word × Word) → Instr
  | none => .build code false false 0 0
  | some (rh, t) => .build code true true rh t

theorem exec_buildOf (code : Word) (s : State) : ∀ params : Option (Word × Word),
    exec (buildOf code params) s = .next (s.buildFrame code params).complete
  | none => exec_build code false false 0 0 s
  | some (rh, t) => exec_build code true true rh t s

/-- The state a command sends from is the one its requests up to the write leave. -/
theorem runInstrs_prepare {code : Word} {v : Variant} {m : Metadata} (hm : metadata code v = .ok m)
    (params : Option (Word × Word)) (s : State) :
    runInstrs ([.resolve code v, buildOf code params] ++ pseudoTxdump (frameBytes code params).length) s =
      .next (s.prepare code params m) := by
  have hresolve : exec (.resolve code v) s = .next (s.setMetadata m).complete := by
    rw [exec_resolve, hm]
    rfl
  have hbuild := exec_buildOf code (s.setMetadata m).complete params
  have hframe : (frameBytes code params).length ≤ txCap := by
    rw [frameBytes_length]
    split <;> decide
  have hlen : ((s.setMetadata m).complete.buildFrame code params).complete.txlen.toNat = (frameBytes code params).length := by
    rw [State.complete_txlen, State.buildFrame_txlen]
    exact toNat_ofNat_index (hframe.trans_lt (by decide))
  rw [runInstrs_append ((runInstrs_cons hresolve _).trans (runInstrs_cons hbuild [])), runInstrs_txdump hframe, ← hlen]
  rfl

/-- The answer is stored by the writes of `RXLOAD`, of which there are none for a response of length 0. -/
theorem runInstrs_rxload_prepare {bytes : List Byte} (hlen : bytes.length ≤ rxCap) (s : State) (c : Word)
    (p : Option (Word × Word)) (m : Metadata) :
    runInstrs (pseudoRxload bytes) (s.prepare c p m) = .next ((s.prepare c p m).loadRx bytes) := by
  cases bytes with
  | nil =>
    rw [State.prepare_eq]
    rfl
  | cons b bytes => exact runInstrs_rxload (List.cons_ne_nil b bytes) hlen _

/-- The requests of the common sequence, on the answer of the sensor (R151). -/
theorem runInstrs_common_sequence {code : Word} {v : Variant} {m : Metadata} (hm : metadata code v = .ok m)
    (params : Option (Word × Word)) (s : State) (verify : Bool) :
    runInstrs ([.resolve code v, buildOf code params] ++ pseudoTxdump (frameBytes code params).length ++
      pseudoRxload (s.nextExchange.bytes.toList.take m.len.toNat) ++ [.parse m.len verify]) s =
    .next ((s.loaded code params m).answer ((s.loaded code params m).parseFrame m.len verify)) := by
  have hbytes : (s.nextExchange.bytes.toList.take m.len.toNat).length ≤ rxCap :=
    (List.length_take_le _ _).trans (metadata_len_le hm)
  rw [runInstrs_append ((runInstrs_append (runInstrs_prepare hm params s) _).trans
    (runInstrs_rxload_prepare hbytes s code params m))]
  exact runInstrs_cons (t := (s.loaded code params m).answer _) rfl []

/-- What `PARSE` and the return do to the block is what `PARSE` does. -/
theorem State.parseAndReturn_eq_returns (s : State) (last : Option Word) (sess : Session) (len : BitVec 4) :
    ∃ r, s.parseAndReturn last sess len = (s.answer (s.parseFrame len sess.verify)).returns r := by
  unfold State.parseAndReturn
  cases s.parseFrame len sess.verify with
  | ok t => exact ⟨_, rfl⟩
  | error f => exact ⟨_, rfl⟩

/-- Settles O44: a command whose transport calls succeed is its requests on the block, beside its exchange on the host's side. -/
theorem commandIsItsRequestSequence : Obligations.CommandIsItsRequestSequence := by
  intro s r sess i code params h hi hw hread hresolve hcause build requests
  obtain ⟨m, hm, rfl⟩ := metadata_of_resolve hresolve hcause
  have hbuild : build = buildOf code params := by
    cases params <;> rfl
  have hrun : runInstrs requests s = _ := hbuild ▸ runInstrs_common_sequence hm params s sess.verify
  obtain ⟨res, hreturns⟩ := (s.loaded code params m).parseAndReturn_eq_returns (some code) sess m.len
  have hinbox : ((s.loaded code params m).answer ((s.loaded code params m).parseFrame m.len sess.verify)).inbox = s.inbox := by
    have hparse := sameHost_of_exec (i := .parse m.len sess.verify) (s := s.loaded code params m) rfl rfl
    rw [hparse.inbox, State.loaded_eq]
  refine ⟨_, _, h.exec_eq hi, hrun, ?_⟩
  rw [State.command_of_answered hm hw fun _ => hread, State.parseAndReturn_withHost, hreturns]
  refine ⟨?_, rfl⟩
  rw [State.withHost, State.exchanged]
  simp only [← hinbox]
  rfl

end Sys2Proof.Machine
end

section
/-! The inbox, which no instruction reads (log 6), and the host's moves: programs presented instruction by instruction, reset and
construction (R143, R190), the operations in whole units (R151 step 1), and where a command stops (R142, R143). -/

namespace Sys2Proof.Machine

/-! ### No instruction reads the inbox (R21, log 6) -/

/-- The state with another inbox. -/
def State.setInbox (s : State) (b : List Move) : State := { s with inbox := b }

theorem Untouched.inbox (b : List Move) : Untouched (State.setInbox · b) :=
  ⟨fun _ _ => rfl, fun _ _ _ => rfl, fun _ _ => rfl, fun _ _ _ => rfl, fun _ _ => rfl⟩

theorem requestEffect_setInbox (s : State) (b : List Move) (i : Instr) (h : isRequest i = true) :
    requestEffect (s.setInbox b) i h = (requestEffect s i h).map (State.setInbox · b) := by
  cases i with
  | crcinit => rfl
  | crcupd b => rfl
  | parse n v => exact State.parseFrame_comm (g := (State.setInbox · b)) rfl (fun _ => rfl) n v
  | _ => exact (Untouched.inbox b).requestEffect_comm s _ h nofun nofun nofun

theorem State.loaded_setInbox (s : State) (b : List Move) (c : Word) (p : Option (Word × Word)) (m : Metadata) :
    (s.setInbox b).loaded c p m = (s.loaded c p m).setInbox b := by
  rw [State.loaded, State.loaded, State.prepare_eq, State.prepare_eq]
  rfl

theorem State.popExchange_setInbox (s : State) (b : List Move) :
    (s.setInbox b).popExchange.exchanges = s.popExchange.exchanges ∧ (s.setInbox b).popExchange.draws = s.popExchange.draws := by
  simp only [State.popExchange_exchanges, State.popExchange_draws]
  exact ⟨rfl, rfl⟩

theorem State.parseAndReturn_setInbox (s : State) (b : List Move) (last : Option Word) (sess : Session) (len : BitVec 4) :
    (s.setInbox b).parseAndReturn last sess len = (s.parseAndReturn last sess len).setInbox b := by
  have hrx : (s.setInbox b).rxByte = s.rxByte := rfl
  simp only [State.parseAndReturn, State.parseFrame, hrx]
  cases parseResponse s.rxByte len sess.verify <;> rfl

theorem State.command_setInbox (s : State) (b : List Move) (c : Word) (p : Option (Word × Word)) (sess : Session) :
    (s.setInbox b).command c p sess = (s.command c p sess).setInbox b := by
  obtain ⟨hx, hd⟩ := s.popExchange_setInbox b
  cases hm : metadata c sess.variant with
  | error f =>
    rw [State.command, State.command, hm]
    rfl
  | ok m =>
    cases hw : s.nextExchange.writeOk with
    | false =>
      rw [State.command_of_write_fails hm hw, State.command_of_write_fails (s := s.setInbox b) hm hw, State.prepare_eq,
        State.prepare_eq, State.writeFailed, State.writeFailed, hx, hd]
      rfl
    | true =>
      by_cases hr : m.len ≠ 0 → s.nextExchange.readOk = true
      · rw [State.command_of_answered hm hw hr, State.command_of_answered (s := s.setInbox b) hm hw hr,
          State.parseAndReturn_withHost, State.parseAndReturn_withHost, State.loaded_setInbox,
          State.parseAndReturn_setInbox, State.exchanged, State.exchanged, hx, hd]
        rfl
      · obtain ⟨hlen, hfail⟩ := Classical.not_imp.mp hr
        have hfalse := Bool.eq_false_of_not_eq_true hfail
        rw [State.command_of_read_fails hm hw hlen hfalse, State.command_of_read_fails (s := s.setInbox b) hm hw hlen hfalse,
          State.prepare_eq, State.prepare_eq, State.readFailed, State.readFailed, hx, hd]
        rfl

theorem State.withSession_command_setInbox (s : State) (b : List Move) (any : Bool) (c : Word) (p : Option (Word × Word)) :
    (s.setInbox b).withSession any ((s.setInbox b).command c p) =
      mapNext (State.setInbox · b) (s.withSession any (s.command c p)) := by
  have hsession : (s.setInbox b).session = s.session := rfl
  unfold State.withSession
  rw [hsession]
  cases s.session with
  | none => rfl
  | some sess =>
    have hmid : (s.setInbox b).midCommand sess = s.midCommand sess := rfl
    dsimp only
    rw [hmid, State.command_setInbox]
    cases !any && s.midCommand sess with
    | true => rfl
    | false => rfl

/-- An instruction does the same with another inbox, which stays. -/
theorem exec_setInbox (s : State) (b : List Move) : ∀ i : Instr,
    exec i (s.setInbox b) = mapNext (State.setInbox · b) (exec i s)
  | .getSerialNumber | .executeSelfTest | .executeConditioning _ _ | .measureRawSignal _ _ | .turnHeaterOff =>
    s.withSession_command_setInbox b _ _ _
  | .crcinit | .crcupd _ | .resolve _ _ | .build _ _ _ _ _ | .parse _ _ | .rawrh _ | .rawt _ | .rxwr _ _ | .txrd _ =>
    exec_comm (State.setInbox · b) rfl (requestEffect_setInbox s b _ rfl) (fun _ => rfl) fun _ => rfl

/-! ### Runs (R49) -/

theorem core_run_succ (M : Host.Core) {s t : M.State} (h : M.step s = .next t) (n : Nat) : M.run (n + 1) s = M.run n t := by
  rw [Host.Core.run, h]

theorem run_succ {s t : State} (h : step s = .next t) (n : Nat) :
    Sys2Proof.core.run (n + 1) s = Sys2Proof.core.run n t :=
  core_run_succ Sys2Proof.core h n

/-- Settles O7: each step runs the next instruction of the list, by induction over the list. -/
theorem presentedProgramRunsItsMeaningsInOrder : Obligations.PresentedProgramRunsItsMeaningsInOrder := by
  intro is
  induction is with
  | nil => exact fun s t h => h
  | cons i is ih =>
    intro s t h
    have hfirst := exec_setInbox s [] i
    have hstep : step (s.setInbox (movesOf (i :: is))) = exec i (s.setInbox (movesOf is)) :=
      step_of_decode (rest := movesOf is) rfl (decodeReadsBackEncode i)
    rw [exec_setInbox] at hstep
    change runInstrs (i :: is) (s.setInbox []) = _ at h
    rw [runInstrs, hfirst] at h
    cases hi : exec i s with
    | next u =>
      rw [hi] at h hstep
      exact (run_succ hstep _).trans (ih u t h)
    | fault r =>
      rw [hi] at h
      cases h
    | refused r =>
      rw [hi] at h
      cases h

/-! ### Reset and construction (R143, R190) -/

/-- Settles O36: a reset takes the host's side over, and a construction writes the session and the result only. -/
theorem resetAndConstructionAreIndependent : Obligations.ResetAndConstructionAreIndependent := by
  refine ⟨fun s => ⟨_, rfl, rfl, rfl, rfl, rfl, rfl, rfl, rfl, rfl, rfl, rfl, rfl, rfl⟩, fun a v f s => ⟨_, rfl, ?_⟩⟩
  obtain ⟨var, -, -, h⟩ | h := s.construct_cases a v f
  · rw [h]
  · rw [h]

theorem variantOfId_eq_some {n : Int} {v : Variant} (h : variantOfId n = some v) : n = 0 ∨ n = 1 := by
  unfold variantOfId at h
  split at h
  case isTrue h0 => exact .inl h0
  case isFalse =>
    split at h
    case isTrue h1 => exact .inr h1
    case isFalse => cases h

/-- Settles O37: the two accepted pairs of arguments, and any other pair. -/
theorem constructionValidatesItsArguments : Obligations.ConstructionValidatesItsArguments := by
  intro a v f s
  refine ⟨?variant0, ?variant1, fun hbad => ?invalid⟩
  case variant0 =>
    rintro rfl rfl
    rfl
  case variant1 =>
    rintro rfl rfl
    rfl
  case invalid =>
    obtain ⟨var, hvar, haddr, -⟩ | h := s.construct_cases a v f
    · have hid := variantOfId_eq_some hvar
      have hbus : a = 0x59 := haddr
      omega
    · exact congrArg Host.Outcome.next h

/-! ### The operations of the session (R144 to R148, R151 step 1) -/

/-- The two operations with compensation values, where they can start. -/
theorem Started.runOperation_measure {s : State} {sess : Session} (h : Started s sess) (rh t : Word) :
    runOperation (.measure rh t) s =
      .next (s.withTransforms rh t fun u rr tr => u.command Config.cmdMeasureRaw (some (rr, tr)) sess) :=
  State.withSession_next false _ h.session (.inr h.midCommand_eq_false)

theorem Started.runOperation_condition {s : State} {sess : Session} (h : Started s sess) (rh t : Word) :
    runOperation (.condition rh t) s =
      .next (s.withTransforms rh t fun u rr tr => u.command Config.cmdConditioning (some (rr, tr)) sess) :=
  State.withSession_next false _ h.session (.inr h.midCommand_eq_false)

theorem State.withTransforms_of_humidity_outside {rh : Word} (h : rawHumidity (sint16 rh) = none) (s : State) (t : Word)
    (rest : State → Word → Word → State) :
    s.withTransforms rh t rest = (s.takeFault .outOfRange).returns (.failed (.block .outOfRange)) := by
  rw [State.withTransforms, h]
  rfl

theorem State.withTransforms_of_temperature_outside {rh t r : Word} (h : rawHumidity (sint16 rh) = some r)
    (ht : rawTemperature (sint16 t) = none) (s : State) (rest : State → Word → Word → State) :
    s.withTransforms rh t rest = ({ s with raw := r }.takeFault .outOfRange).returns (.failed (.block .outOfRange)) := by
  rw [State.withTransforms, h, ht]
  rfl

theorem State.withTransforms_of_inside {rh t r q : Word} (h : rawHumidity (sint16 rh) = some r)
    (ht : rawTemperature (sint16 t) = some q) (s : State) (rest : State → Word → Word → State) :
    s.withTransforms rh t rest = rest { s with raw := q }.complete r q := by
  rw [State.withTransforms, h, ht]
  rfl

/-- Settles O50: step 1 of the common sequence is the two requests, by whether each gives a value. -/
theorem transformsComeBeforeTheCommand : Obligations.TransformsComeBeforeTheCommand := by
  intro s a b sess rh t h ha hb
  rw [h.runOperation_measure, h.runOperation_condition]
  rw [exec_rawrh, ← sint16_eq_twosComplement] at ha
  rw [exec_rawt, ← sint16_eq_twosComplement] at hb
  have hfault : (causeCode .outOfRange) ≠ 0 := causeCode_ne_zero .outOfRange
  cases hrh : rawHumidity (sint16 rh) with
  | none =>
    rw [hrh, State.answer_setRaw_none] at ha
    obtain rfl := Host.Outcome.next.inj ha
    refine ⟨fun hcause => absurd hcause hfault, fun _ => ?_, fun hcause => absurd hcause hfault⟩
    rw [State.withTransforms_of_humidity_outside hrh, State.withTransforms_of_humidity_outside hrh]
    exact ⟨rfl, rfl⟩
  | some r =>
    rw [hrh, State.answer_setRaw_some] at ha
    obtain rfl := Host.Outcome.next.inj ha
    cases ht : rawTemperature (sint16 t) with
    | none =>
      rw [ht, State.answer_setRaw_none] at hb
      obtain rfl := Host.Outcome.next.inj hb
      refine ⟨fun _ hcause => absurd hcause hfault, fun hcause => absurd rfl hcause, fun _ _ => ?_⟩
      rw [State.withTransforms_of_temperature_outside hrh ht, State.withTransforms_of_temperature_outside hrh ht]
      exact ⟨rfl, rfl⟩
    | some q =>
      rw [ht, State.answer_setRaw_some] at hb
      obtain rfl := Host.Outcome.next.inj hb
      refine ⟨fun _ _ => ?_, fun hcause => absurd rfl hcause, fun _ hcause => absurd rfl hcause⟩
      have hstarted : Started ({ s with raw := q } : State).complete sess := ⟨h.session, h.ready⟩
      rw [State.withTransforms_of_inside hrh ht, State.withTransforms_of_inside hrh ht]
      exact ⟨(hstarted.exec_eq (i := .measureRawSignal r q) rfl).symm,
        (hstarted.exec_eq (i := .executeConditioning r q) rfl).symm⟩

/-- Settles O51: each operation runs what its wire command runs. -/
theorem plainOperationsAreTheirWireCommands : Obligations.PlainOperationsAreTheirWireCommands :=
  fun _ => ⟨rfl, rfl, rfl⟩

/-! ### Where a command stops (R142, R143, R194) -/

theorem State.withSession_none {s : State} (h : s.session = none) (any : Bool) (f : Session → State) :
    s.withSession any f = .fault .noSession := by
  rw [State.withSession, h]

theorem State.withSession_midCommand {s : State} {sess : Session} (h : s.session = some sess)
    (hmid : s.midCommand sess = true) (f : Session → State) : s.withSession false f = .refused .interleavedSequences := by
  rw [State.withSession, h]
  exact if_pos (by rw [hmid]; rfl)

/-- Reading `TX` out changes `RDATA` and `ERR` only. -/
theorem State.dumpTx_eq (s : State) : ∀ n, s.dumpTx n = { s with rdata := (s.dumpTx n).rdata, err := (s.dumpTx n).err }
  | 0 => rfl
  | n + 1 => by rw [State.dumpTx_succ]

/-- A send starts where the command with the frame's code can. -/
theorem State.sendFrame_eq_withSession (s : State) : s.sendFrame =
    (s.dumpTx s.txlen.toNat).withSession (frameCode s.txFrame == some Config.cmdHeaterOff)
      ((s.dumpTx s.txlen.toNat).writeBytes s.txFrame) := rfl

/-- Settles O52: the guard of every wire command and of every interaction with the transport. -/
theorem wireCommandsStopWithoutASession : Obligations.WireCommandsStopWithoutASession := by
  refine fun s rh t => ⟨fun hnone => ?none, fun sess hs hawaiting hepoch => ?mid⟩
  case none =>
    have hstop any f : s.withSession any f = .fault .noSession := State.withSession_none hnone any f
    refine ⟨hstop _ _, hstop _ _, hstop _ _, hstop _ _, hstop _ _, ?_, hstop _ _, fun skip => hstop _ _⟩
    exact State.withSession_none (by rw [State.dumpTx_eq]; exact hnone) _ _
  case mid =>
    have hmid : s.midCommand sess = true := State.midCommand_iff.mpr ⟨hawaiting, hepoch⟩
    have hstop f : s.withSession false f = .refused .interleavedSequences := State.withSession_midCommand hs hmid f
    refine ⟨hstop _, hstop _, hstop _, hstop _, fun hother => ?_⟩
    have hguard : (frameCode s.txFrame == some Config.cmdHeaterOff) = false := beq_eq_false_iff_ne.mpr hother
    change s.sendFrame = _
    rw [State.sendFrame_eq_withSession, hguard]
    exact State.withSession_midCommand (sess := sess) (by rw [State.dumpTx_eq]; exact hs) (by rw [State.dumpTx_eq]; exact hmid) _

end Sys2Proof.Machine
end

section
/-! Frames that are no instruction, and the interactions of a command one by one (R60 to R63, R120 to R124, R150 to R152, R210):
from that the statements of `70_reset_and_hazards.md` section 4 and of `42_frame_codec.md` section 4. -/

namespace Sys2Proof.Machine

/-! ### What a frame that is no instruction decodes to (log 16) -/

theorem decode_of_unknownCode {ch cl : Byte} {rest : List Byte} (hlen : rest.length = 0 ∨ rest.length = 6)
    (h : ∀ cmd, joinBytes ch cl ≠ codeOfCommand cmd) :
    decode (.frame (ch :: cl :: rest)) = .error (.unknownCode (joinBytes ch cl)) := by
  have hnone := commandOfCode_eq_none.mpr h
  match rest, hlen with
  | [], _ => simp only [decode, decodeFrame, hnone]
  | [_, _, _, _, _, _], _ => simp only [decode, decodeFrame, hnone]

/-- A command has the other format where its frame has values and the command has none, or the other way round (R63). -/
theorem decode_of_wrongShape {cmd : WireCommand} {params : Option (Word × Word)}
    (h : params.isSome = true ↔ cmd ≠ .executeConditioning ∧ cmd ≠ .measureRawSignal) :
    decode (.frame (frameBytes (codeOfCommand cmd) params)) = .error (.wrongShape cmd params) := by
  cases params with
  | none =>
    rw [decode_frameBytes_none]
    cases cmd with
    | executeConditioning => rfl
    | measureRawSignal => rfl
    | _ => exact absurd (h.mpr ⟨nofun, nofun⟩) Bool.false_ne_true
  | some values =>
    obtain ⟨hcond, hmeasure⟩ := h.mp rfl
    rw [decode_frameBytes_some]
    cases cmd with
    | executeConditioning => exact absurd rfl hcond
    | measureRawSignal => exact absurd rfl hmeasure
    | _ => rfl

theorem decode_of_badLength {bytes : List Byte} (h2 : bytes.length ≠ 2) (h8 : bytes.length ≠ 8) :
    decode (.frame bytes) = .error (.badLength bytes) := by
  change decodeFrame bytes = _
  unfold decodeFrame
  split
  case h_1 => exact absurd rfl h2
  case h_2 => exact absurd rfl h8
  case h_3 => rfl

theorem decode_of_badChecksum {cmd : WireCommand} {rh rl rc th tl tc : Byte}
    (h : rc ≠ crc8 [rh, rl] ∨ tc ≠ crc8 [th, tl]) :
    decode (.frame (hiByte (codeOfCommand cmd) :: loByte (codeOfCommand cmd) :: [rh, rl, rc, th, tl, tc])) =
      .error (.badChecksum (hiByte (codeOfCommand cmd) :: loByte (codeOfCommand cmd) :: [rh, rl, rc, th, tl, tc])) := by
  have hbad : ¬ (rc = crc8 [rh, rl] ∧ tc = crc8 [th, tl]) := fun hsum => h.elim (· hsum.1) (· hsum.2)
  simp only [decode, decodeFrame, joinBytes_split, commandOfCode_codeOfCommand, if_neg hbad]

/-! ### Writing bytes to the bus (R150) -/

/-- What an attempt to write changes: the answer is used up and the attempt recorded. -/
def State.attempted (s : State) (sess : Session) (bytes : List Byte) : State :=
  { s with
    exchanges := s.popExchange.exchanges
    draws := s.popExchange.draws
    trace := s.trace ++ [.write sess.addr bytes s.nextExchange.writeOk] }

theorem State.popExchange_record_write (s : State) (sess : Session) (bytes : List Byte) :
    s.popExchange.record (.write sess.addr bytes s.nextExchange.writeOk) = s.attempted sess bytes := by
  rw [State.popExchange_eq]
  rfl

section
variable {s : State} (sess : Session) {bytes : List Byte}

theorem State.writeBytes_of_fails (hw : s.nextExchange.writeOk = false) :
    s.writeBytes bytes sess = (s.attempted sess bytes).returns (.failed .busError) := by
  rw [← s.popExchange_record_write]
  simp only [State.writeBytes, hw, Bool.false_eq_true, if_false]

theorem State.writeBytes_of_short (hw : s.nextExchange.writeOk = true) (hshort : frameCode bytes = none) :
    s.writeBytes bytes sess = s.attempted sess bytes := by
  rw [← s.popExchange_record_write]
  simp only [State.writeBytes, hw, hshort, if_true]

theorem State.writeBytes_of_code (hw : s.nextExchange.writeOk = true) {code : Word} (hcode : frameCode bytes = some code) :
    s.writeBytes bytes sess = (s.attempted sess bytes).issue sess code .awaitingResponse := by
  rw [← s.popExchange_record_write]
  simp only [State.writeBytes, hw, hcode, if_true]

end

theorem frameCode_of_short : ∀ {bytes : List Byte}, bytes.length < 2 → frameCode bytes = none
  | [], _ | [_], _ => rfl
  | _ :: _ :: _, h => absurd h (by simp)

/-- The code of a frame is read back from its bytes. -/
theorem frameCode_frameBytes (code : Word) : ∀ p : Option (Word × Word), frameCode (frameBytes code p) = some code
  | none | some _ => congrArg some (joinBytes_split code)

/-- Bytes that are no command frame are written as they are. -/
theorem Started.present_bytes {s : State} {sess : Session} (h : Started s sess) {bytes : List Byte}
    (hdecode : decode (.frame bytes) = .error (.badLength bytes) ∨ decode (.frame bytes) = .error (.badChecksum bytes)) :
    present (.frame bytes) s = .next (s.writeBytes bytes sess) := by
  have hsend : present (.frame bytes) s = s.sendBytes bytes := by
    unfold present
    rcases hdecode with hdecode | hdecode <;> rw [hdecode]
  rw [hsend]
  exact State.withSession_next _ _ h.session (.inr h.midCommand_eq_false)

theorem Started.present_unknownCode {s : State} {sess : Session} (h : Started s sess) {bytes : List Byte} {code : Word}
    (hdecode : decode (.frame bytes) = .error (.unknownCode code)) :
    present (.frame bytes) s = .next (s.command code none sess) := by
  unfold present
  rw [hdecode]
  exact State.withSession_next _ _ h.session (.inr h.midCommand_eq_false)

theorem Started.present_wrongShape {s : State} {sess : Session} (h : Started s sess) {bytes : List Byte} {cmd : WireCommand}
    {params : Option (Word × Word)} (hdecode : decode (.frame bytes) = .error (.wrongShape cmd params)) :
    present (.frame bytes) s = .next (s.command (codeOfCommand cmd) params sess) := by
  unfold present
  rw [hdecode]
  exact State.withSession_next _ _ h.session (.inr h.midCommand_eq_false)

/-- A command that its variant has, has metadata. -/
theorem exists_metadata_of_command {cmd : WireCommand} {v : Variant} (h : cmd = .executeConditioning → v = .variant1) :
    ∃ m, metadata (codeOfCommand cmd) v = .ok m := by
  rw [metadata_codeOfCommand]
  obtain hentry | ⟨hcmd, hvar⟩ := metadataTable_cases cmd v
  · exact hentry
  · rw [h hcmd] at hvar
    cases hvar

/-- Settles O53: what each kind of frame decodes to, and what that has for its effect. -/
theorem framesNoCommandHas : Obligations.FramesNoCommandHas := by
  refine ⟨?unknown, ?shape, ?bytes⟩
  case unknown =>
    rintro s sess _ ch cl rest h rfl hlen hcode
    rw [h.present_unknownCode (decode_of_unknownCode hlen hcode), State.command, metadata_of_unknown hcode]
    rfl
  case shape =>
    intro s sess cmd params h hshape hvar
    obtain ⟨m, hm⟩ := exists_metadata_of_command hvar
    rw [h.present_wrongShape (decode_of_wrongShape hshape)]
    cases hw : s.nextExchange.writeOk with
    | false =>
      refine ⟨_, [], rfl, ?_⟩
      rw [State.command_of_write_fails hm hw, State.prepare_eq]
      exact ⟨rfl, fun _ => ⟨rfl, rfl, rfl⟩, nofun⟩
    | true =>
      obtain ⟨rest, htrace⟩ := State.command_trace hm (s := s) params
      refine ⟨_, rest, rfl, by rw [htrace, hw], nofun, fun _ => ?_⟩
      rw [State.command_session hm params hw, endState_codeOfCommand]
  case bytes =>
    intro s sess bytes h hbytes written
    have hdecode : decode (.frame bytes) = .error (.badLength bytes) ∨ decode (.frame bytes) = .error (.badChecksum bytes) := by
      obtain ⟨h2, h8⟩ | ⟨cmd, rh, rl, rc, th, tl, tc, rfl, hsum⟩ := hbytes
      · exact .inl (decode_of_badLength h2 h8)
      · exact .inr (decode_of_badChecksum hsum)
    rw [h.present_bytes hdecode]
    refine ⟨fun hw => ?_, fun hw hlen => ?_, fun hw ch cl rest hcode => ?_⟩
    · rw [State.writeBytes_of_fails sess hw]
      rfl
    · rw [State.writeBytes_of_short sess hw (frameCode_of_short hlen)]
      rfl
    · have hframe : frameCode bytes = some (joinBytes ch cl) := by rw [hcode]; rfl
      rw [State.writeBytes_of_code sess hw hframe]
      rfl

/-! ### "Send" (R210) -/

/-- A built frame is read out of `TX` and written: the state read out is that of a command's preparation, without a lookup. -/
theorem State.sendFrame_of_built (s : State) (code : Word) (p : Option (Word × Word)) :
    (s.buildFrame code p).complete.sendFrame = (s.prepare code p ⟨s.len, s.wait⟩).sendBytes (frameBytes code p) := by
  have hframe : (s.buildFrame code p).complete.txFrame = frameBytes code p := by
    rw [← s.prepare_txFrame code p ⟨s.len, s.wait⟩, State.prepare, State.dumpTx_eq]
    rfl
  rw [State.sendFrame, hframe]
  rfl

/-- A send starts where the command can, and that of turn-heater-off from any state (R142, R148). -/
theorem State.sendBytes_of_start {s : State} {sess : Session} {code : Word}
    (h : Started s sess ∨ s.session = some sess ∧ code = Config.cmdHeaterOff) (p : Option (Word × Word)) (t : State)
    (ht : SameHost s t) : t.sendBytes (frameBytes code p) = .next (t.writeBytes (frameBytes code p) sess) := by
  have hmid : t.midCommand sess = s.midCommand sess := by rw [State.midCommand, State.midCommand, ht.sentEpoch, ht.epoch]
  obtain hstarted | ⟨hs, rfl⟩ := h
  · exact State.withSession_next _ _ (ht.session.trans hstarted.session) (.inr (hmid.trans hstarted.midCommand_eq_false))
  · refine State.withSession_next _ _ (ht.session.trans hs) (.inl ?_)
    rw [frameCode_frameBytes]
    exact beq_self_eq_true _

theorem State.sameHost_prepare (s : State) (c : Word) (p : Option (Word × Word)) (m : Metadata) :
    SameHost s (s.prepare c p m) := by
  rw [State.prepare_eq]
  exact ⟨rfl, rfl, rfl, rfl, rfl, rfl, rfl, rfl⟩

/-- Settles O54: the built frame is read out and written, with the two ends of a write. -/
theorem sendWritesTheBuiltFrame : Obligations.SendWritesTheBuiltFrame := by
  intro s sess code rh t rhp tp h frame
  have hbuild := exec_build code rhp tp rh t s
  rw [suppliedParams_eq] at hbuild
  generalize hp : (if rhp = true ∧ tp = true then some (rh, t) else none) = p at hbuild
  have hframe : frame = frameBytes code p := congrArg (frameBytes code) hp
  have hsame := s.sameHost_prepare code p ⟨s.len, s.wait⟩
  have hsend : perform .send (s.buildFrame code p).complete =
      .next ((s.prepare code p ⟨s.len, s.wait⟩).writeBytes (frameBytes code p) sess) :=
    (s.sendFrame_of_built code p).trans (State.sendBytes_of_start h p _ hsame)
  have hs : s.session = some sess := h.elim Started.session And.left
  refine ⟨_, _, hbuild, hsend, ?_⟩
  have hx := s.prepare_nextExchange code p ⟨s.len, s.wait⟩
  cases hw : s.nextExchange.writeOk with
  | false =>
    rw [State.writeBytes_of_fails sess (hx ▸ hw), hframe, State.attempted, hx, hw, State.prepare_eq]
    exact ⟨rfl, nofun, fun _ => ⟨rfl, rfl, rfl⟩⟩
  | true =>
    rw [State.writeBytes_of_code sess (hx ▸ hw) (frameCode_frameBytes code p), hframe, State.attempted, hx, hw,
      State.prepare_eq]
    exact ⟨rfl, fun _ => ⟨rfl, rfl, rfl⟩, nofun⟩

end Sys2Proof.Machine
end

section
/-! "Receive" and "decode" (R210), the views of a response (R120 to R124), and a command gone through one interaction at a time
(R151): from that the statements of `70_reset_and_hazards.md` section 4 and of `42_frame_codec.md` section 4 on them. -/

namespace Sys2Proof.Machine

/-! ### "Receive" (R150, R151 step 6) -/

/-- Ending the pending command is one case distinction (R142, R152). -/
theorem Session.settled_eq (sess : Session) : sess.settled =
    { sess with sstate := if sess.sstate = .awaitingResponse then stateAfter sess.lastCmd else sess.sstate } := by
  obtain ⟨hne, h⟩ | ⟨hawaiting, hlast, h⟩ | ⟨c, hawaiting, hlast, h⟩ := sess.settled_cases
  · rw [h, if_neg hne]
  · rw [h, if_pos hawaiting, hlast]
    rfl
  · rw [h, if_pos hawaiting, hlast]
    rfl

section
variable {s : State} {sess : Session} (hs : s.session = some sess)
include hs

theorem perform_receive : perform .receive s = .next (s.readResponse sess) :=
  State.withSession_next true _ hs (.inl rfl)

theorem perform_decode (skip : Bool) : perform (.decode skip) s = .next (s.decodeResponse skip sess) :=
  State.withSession_next true _ hs (.inl rfl)

end

/-- What a transport call changes on the host's side: the answer is used up and the call recorded. -/
theorem State.popExchange_record (s : State) (e : BusEvent) : s.popExchange.record e =
    { s with exchanges := s.popExchange.exchanges, draws := s.popExchange.draws, trace := s.trace ++ [e] } := by
  rw [State.popExchange_eq]
  rfl

section
variable {s : State} (sess : Session)

theorem State.readResponse_of_empty (hlen : s.len = 0) : s.readResponse sess = s :=
  if_pos hlen

theorem State.readResponse_of_ok (hlen : s.len ≠ 0) (hr : s.nextExchange.readOk = true) : s.readResponse sess =
    State.loadRx { s with
      exchanges := s.popExchange.exchanges, draws := s.popExchange.draws
      trace := s.trace ++ [.read sess.addr s.len (some (s.nextExchange.bytes.toList.take s.len.toNat))] }
      (s.nextExchange.bytes.toList.take s.len.toNat) := by
  obtain ⟨hempty, -⟩ | ⟨-, -, h⟩ | ⟨-, hfail, -⟩ := s.readResponse_cases sess
  · exact absurd hempty hlen
  · rw [h, State.popExchange_record]
  · rw [hr] at hfail
    cases hfail

theorem State.readResponse_of_fails (hlen : s.len ≠ 0) (hr : s.nextExchange.readOk = false) : s.readResponse sess =
    { s with
      session := some sess.settled, results := s.results ++ [.failed .busError]
      exchanges := s.popExchange.exchanges, draws := s.popExchange.draws
      trace := s.trace ++ [.read sess.addr s.len none] } := by
  obtain ⟨hempty, -⟩ | ⟨-, hok, -⟩ | ⟨-, -, h⟩ := s.readResponse_cases sess
  · exact absurd hempty hlen
  · rw [hr] at hok
    cases hok
  · rw [h, State.popExchange_record]
    rfl

end

/-! ### "Decode" (R151 step 7) -/

/-- The view or the fault is that of the `PARSE` alone. -/
theorem State.parseAndReturn_of_exec {s p : State} {sess : Session} {len : BitVec 4}
    (hp : exec (.parse len sess.verify) s = .next p) (last : Option Word) :
    (p.err.cause = 0 → s.parseAndReturn last sess len = p.returns (viewOf last sess.variant p.words)) ∧
    (p.err.cause ≠ 0 → ∃ f, p.err = errOfFault f ∧ s.parseAndReturn last sess len = p.returns (.failed (.block f))) := by
  obtain rfl : s.answer (s.parseFrame len sess.verify) = p := Host.Outcome.next.inj hp
  unfold State.parseAndReturn
  cases s.parseFrame len sess.verify with
  | ok u => exact ⟨fun _ => rfl, absurd rfl⟩
  | error f => exact ⟨fun hcause => absurd hcause (errOfFault_cause f ▸ causeCode_ne_zero f), fun _ => ⟨f, rfl, rfl⟩⟩

theorem State.decodeResponse_of_parse {s : State} {skip : Bool} (h : skip = false ∨ s.len ≠ 0) (sess : Session) :
    s.decodeResponse skip sess = { s.parseAndReturn sess.lastCmd sess s.len with session := some sess.settled } := by
  have hgo : ¬ (skip && s.len == 0) = true := by
    rw [Bool.and_eq_true, beq_iff_eq]
    rintro ⟨hskip, hlen⟩
    exact h.elim (fun hfalse => Bool.false_ne_true (hfalse.symm.trans hskip)) (· hlen)
  have hrx : (s.setSession sess.settled).rxByte = s.rxByte := rfl
  simp only [State.decodeResponse, if_neg hgo, State.parseAndReturn, State.parseFrame, hrx]
  cases parseResponse s.rxByte s.len sess.verify <;> rfl

theorem State.decodeResponse_of_skip {s : State} (hlen : s.len = 0) (sess : Session) : s.decodeResponse true sess =
    { s with
      session := some sess.settled, results := s.results ++ [viewOf sess.lastCmd sess.variant []] } := by
  have hskip : (true && s.len == 0) = true := by rw [hlen]; rfl
  rw [State.decodeResponse, if_pos hskip]
  rfl

/-- `PARSE` of an empty response stores no group. -/
theorem exec_parse_empty (s : State) (ver : Bool) : exec (.parse 0 ver) s = .next ({ s with ngrp := 0 } : State).complete := by
  have hd : (s.setGroups []).d = s.d := Vector.ext fun i hi => s.setGroups_d_getElem [] ⟨i, hi⟩
  have hok : (s.setGroups []).ok = s.ok := Vector.ext fun i hi => s.setGroups_ok_getElem [] ⟨i, hi⟩
  calc exec (.parse 0 ver) s
      = .next (s.setGroups []).complete := rfl
    _ = .next (State.complete { s with ngrp := 0, d := (s.setGroups []).d, ok := (s.setGroups []).ok }) := rfl
    _ = .next ({ s with ngrp := 0 } : State).complete := by rw [hd, hok]

/-! ### The views (R120 to R124) -/

/-- The code last sent names its command, or the view is untyped. -/
theorem viewOf_cases (last : Option Word) (v : Variant) (words : List Word) :
    (∃ cmd, last = some (codeOfCommand cmd) ∧ viewOf last v words = typedView cmd v words) ∨
    viewOf last v words = .untyped words := by
  cases hcmd : last.bind commandOfCode with
  | none => exact .inr (by rw [viewOf, hcmd])
  | some cmd =>
    obtain ⟨code, rfl, hcode⟩ := Option.bind_eq_some_iff.mp hcmd
    exact .inl ⟨cmd, by rw [codeOfCommand_of_commandOfCode hcode], by rw [viewOf, hcmd]⟩

theorem nox_of_typedView {cmd : WireCommand} {v : Variant} {words : List Word} {voc nox : Word}
    (h : typedView cmd v words = .measured voc (some nox)) : v = .variant1 ∧ cmd = .measureRawSignal := by
  unfold typedView at h
  split at h
  case h_1 => split at h <;> cases h
  case h_2 => split at h <;> cases h
  case h_3 =>
    split at h
    case h_1 => cases h
    case h_2 => split at h <;> cases h
  case h_4 =>
    split at h
    case h_1 => split at h <;> cases h
    case h_2 => exact ⟨rfl, rfl⟩
  case h_5 => split at h <;> cases h

/-- The wire command with a code; its values do not matter to the response. -/
def instrOfCommand : WireCommand → Instr
  | .getSerialNumber => .getSerialNumber
  | .executeSelfTest => .executeSelfTest
  | .executeConditioning => .executeConditioning 0 0
  | .measureRawSignal => .measureRawSignal 0 0
  | .turnHeaterOff => .turnHeaterOff

theorem exists_wireParts_instrOfCommand : ∀ cmd, ∃ params, wireParts (instrOfCommand cmd) = some (codeOfCommand cmd, params)
  | .getSerialNumber | .executeSelfTest | .executeConditioning | .measureRawSignal | .turnHeaterOff => ⟨_, rfl⟩

/-- A response of another length than the command's own on that variant has no type, nor has one to a command the variant has
not. -/
theorem typedView_of_length_ne {v : Variant} {words : List Word} : ∀ {cmd : WireCommand},
    (hasCommand (instrOfCommand cmd) v = true → words.length ≠ responseGroups (instrOfCommand cmd) v) →
    typedView cmd v words = .untyped words
  | .getSerialNumber, h => by
    match words with
    | [_, _, _] => exact absurd rfl (h rfl)
    | [] | [_] | [_, _] | _ :: _ :: _ :: _ :: _ => rfl
  | .executeSelfTest, h => by
    match words with
    | [_] => exact absurd rfl (h rfl)
    | [] | _ :: _ :: _ => rfl
  | .executeConditioning, h => by
    match v, words with
    | .variant0, _ => rfl
    | .variant1, [_] => exact absurd rfl (h rfl)
    | .variant1, [] | .variant1, _ :: _ :: _ => rfl
  | .measureRawSignal, h => by
    match v, words with
    | .variant0, [_] => exact absurd rfl (h rfl)
    | .variant0, [] | .variant0, _ :: _ :: _ => rfl
    | .variant1, [_, _] => exact absurd rfl (h rfl)
    | .variant1, [] | .variant1, [_] | .variant1, _ :: _ :: _ :: _ => rfl
  | .turnHeaterOff, h => by
    match words with
    | [] => exact absurd rfl (h rfl)
    | _ :: _ => rfl

/-- Settles O55: the ends of the two interactions, and the views by the command last sent. -/
theorem receiveAndDecodeOneByOne : Obligations.ReceiveAndDecodeOneByOne := by
  refine ⟨?interactions, fun v a b c => ?typed, fun last v words voc nox h => ?nox, fun last v words h => ?untyped⟩
  case interactions =>
    intro s sess hs settled
    have hsettled : sess.settled = settled := sess.settled_eq
    rw [← hsettled, perform_receive hs]
    simp only [perform_decode hs]
    refine ⟨fun hlen => ?_, fun hlen hcap hr => ?_, fun hlen hr => ?_, fun skip p hskip hp => ?_, fun hlen => ?_,
      fun hlen hlast => ?_⟩
    · rw [State.readResponse_of_empty sess hlen]
    · refine ⟨_, rfl, ?_⟩
      rw [State.readResponse_of_ok sess hlen hr, ← take_bytes_eq _ hcap]
      exact ⟨State.loadRx_answer_rxByte _ s.nextExchange hcap, rfl⟩
    · rw [State.readResponse_of_fails sess hlen hr]
    · obtain ⟨hview, hfault⟩ := State.parseAndReturn_of_exec hp sess.lastCmd
      have hresults : p.results = s.results := (sameHost_of_exec rfl hp).results
      rw [State.decodeResponse_of_parse hskip, ← hresults]
      refine ⟨fun hcause => ?_, fun hcause => ?_⟩
      · rw [hview hcause]
        rfl
      · obtain ⟨f, herr, hreturn⟩ := hfault hcause
        exact ⟨f, herr, by rw [hreturn]; rfl⟩
    · rw [State.decodeResponse_of_skip hlen]
    · have hp := exec_parse_empty s sess.verify
      rw [← hlen] at hp
      have hview : viewOf (some Config.cmdHeaterOff) sess.variant [] = .empty := viewOf_codeOfCommand .turnHeaterOff ..
      have hwords : ({ s with ngrp := 0 } : State).complete.words = [] := rfl
      refine ⟨_, _, rfl, rfl, ?_⟩
      rw [State.decodeResponse_of_parse (.inl rfl), (State.parseAndReturn_of_exec hp sess.lastCmd).1 rfl,
        State.decodeResponse_of_skip hlen, hlast, hwords, hview]
      exact ⟨rfl, rfl, rfl, rfl⟩
  case typed =>
    exact ⟨viewOf_codeOfCommand .getSerialNumber .., viewOf_codeOfCommand .executeSelfTest ..,
      viewOf_codeOfCommand .executeConditioning .., viewOf_codeOfCommand .measureRawSignal ..,
      viewOf_codeOfCommand .measureRawSignal .., viewOf_codeOfCommand .turnHeaterOff ..⟩
  case nox =>
    obtain ⟨cmd, rfl, hview⟩ | hview := viewOf_cases last v words
    · obtain ⟨hv, rfl⟩ := nox_of_typedView (hview.symm.trans h)
      exact ⟨hv, rfl⟩
    · rw [hview] at h
      cases h
  case untyped =>
    obtain ⟨cmd, rfl, hview⟩ | hview := viewOf_cases last v words
    · obtain ⟨params, hparts⟩ := exists_wireParts_instrOfCommand cmd
      rw [hview]
      exact typedView_of_length_ne fun hv => h _ _ params hparts hv rfl
    · exact hview

/-! ### A command gone through one interaction at a time (R151, R210) -/

/-- The session between the send and the decode of a command. -/
def Session.awaiting (sess : Session) (code : Word) : Session :=
  { sess with lastCmd := some code, sstate := .awaitingResponse }

theorem step_lookup {s : State} {code : Word} {v : Variant} {rest : List Move} {m : Metadata}
    (hm : metadata code v = .ok m) (hinbox : s.inbox = .present (encode (.resolve code v)) :: rest) :
    step s = .next ((s.setInbox rest).setMetadata m).complete := by
  rw [step_of_decode hinbox (decodeReadsBackEncode _), exec_resolve, hm]
  rfl

theorem step_build {s : State} {code : Word} {params : Option (Word × Word)} {rest : List Move}
    (hinbox : s.inbox = .present (encode (.build code params.isSome params.isSome (params.getD (0, 0)).1
      (params.getD (0, 0)).2)) :: rest) :
    step s = .next ((s.setInbox rest).buildFrame code params).complete := by
  have hsupplied : suppliedParams params.isSome params.isSome (params.getD (0, 0)).1 (params.getD (0, 0)).2 = params := by
    cases params <;> rfl
  rw [step_of_decode hinbox (decodeReadsBackEncode _), exec_build, hsupplied]
  rfl

/-- A send that succeeds, of the frame built in the state `a`. -/
theorem step_send {a t : State} {sess : Session} (h : Started a sess) (hw : a.nextExchange.writeOk = true) {code : Word}
    {params : Option (Word × Word)} {rest : List Move} (hinbox : t.inbox = .send :: rest)
    (ht : t.setInbox rest = (a.buildFrame code params).complete) :
    step t = .next (((a.prepare code params ⟨a.len, a.wait⟩).attempted sess (frameBytes code params)).issue sess code
      .awaitingResponse) := by
  have hx := a.prepare_nextExchange code params ⟨a.len, a.wait⟩
  calc step t
      = (t.setInbox rest).sendFrame := step_cons hinbox
    _ = (a.prepare code params ⟨a.len, a.wait⟩).sendBytes (frameBytes code params) := by rw [ht, State.sendFrame_of_built]
    _ = .next ((a.prepare code params ⟨a.len, a.wait⟩).writeBytes (frameBytes code params) sess) :=
      State.sendBytes_of_start (.inl h) params _ (a.sameHost_prepare ..)
    _ = _ := by rw [State.writeBytes_of_code sess (hx ▸ hw) (frameCode_frameBytes code params)]

section
variable {s : State} {sess : Session} {code : Word} {params : Option (Word × Word)} {m : Metadata}

/-- The host's side after the send and the wait of a command, with the moves and the answers that are left. -/
def State.awaiting (s : State) (sess : Session) (code : Word) (params : Option (Word × Word)) (m : Metadata)
    (rest : List Move) (xs : List Exchange) : State :=
  { s with
    session := some (sess.awaiting code)
    inbox := rest, exchanges := xs, sentEpoch := s.epoch
    trace := s.trace ++ [.write sess.addr (frameBytes code params) true, .wait m.wait] }

/-- The lookup, the frame built and sent, and the wait: the block is as the command prepares it, and the session awaits the
response. -/
theorem run_until_wait (h : Started s sess) (hm : metadata code sess.variant = .ok m) {x : Exchange} {xs : List Exchange}
    (hx : x.writeOk = true) (rest : List Move) (n : Nat) :
    Sys2Proof.core.run (n + 4) { s with
      exchanges := x :: xs
      inbox := .present (encode (.resolve code sess.variant)) ::
        .present (encode (.build code params.isSome params.isSome (params.getD (0, 0)).1 (params.getD (0, 0)).2)) ::
        .send :: .wait m.wait :: rest } =
    Sys2Proof.core.run n ((s.prepare code params m).withHost (s.awaiting sess code params m rest xs)) := by
  let found : State := ({ s with exchanges := x :: xs } : State).setMetadata m
  have hsend : step ((found.complete.setInbox (.send :: .wait m.wait :: rest)).buildFrame code params).complete = _ :=
    step_send (a := found.complete.setInbox (.wait m.wait :: rest)) ⟨h.session, h.ready⟩ hx rfl rfl
  have hok : (found.complete.setInbox (.wait m.wait :: rest)).nextExchange.writeOk = true := hx
  let sent : State := (s.prepare code params m).withHost { s with
    session := some (sess.awaiting code)
    inbox := .wait m.wait :: rest, exchanges := xs, sentEpoch := s.epoch
    trace := s.trace ++ [.write sess.addr (frameBytes code params) true] }
  have hsent : (((found.complete.setInbox (.wait m.wait :: rest)).prepare code params ⟨m.len, m.wait⟩).attempted sess
      (frameBytes code params)).issue sess code .awaitingResponse = sent := by
    rw [State.attempted, State.prepare_nextExchange, hok, State.prepare_eq]
    simp only [sent]
    rw [State.prepare_eq]
    rfl
  have htrace : s.trace ++ [.write sess.addr (frameBytes code params) true, .wait m.wait] =
      s.trace ++ [.write sess.addr (frameBytes code params) true] ++ [.wait m.wait] := by
    rw [List.append_assoc]
    rfl
  have hwait : step sent = .next ((s.prepare code params m).withHost (s.awaiting sess code params m rest xs)) := by
    rw [State.awaiting, htrace]
    exact step_cons (m := .wait m.wait) (rest := rest) rfl
  have hbuild := step_build (s := (found.setInbox (.present (encode (.build code params.isSome params.isSome
    (params.getD (0, 0)).1 (params.getD (0, 0)).2)) :: .send :: .wait m.wait :: rest)).complete) (params := params)
    (rest := .send :: .wait m.wait :: rest) rfl
  exact (run_succ (step_lookup (rest := .present _ :: .send :: .wait m.wait :: rest) hm rfl) _).trans <|
    (run_succ hbuild _).trans <|
    (run_succ (hsend.trans (congrArg Host.Outcome.next hsent)) _).trans (run_succ hwait n)

/-- The host's side after the read too. -/
def State.answered (s : State) (sess : Session) (code : Word) (params : Option (Word × Word)) (m : Metadata)
    (rest : List Move) (x : Exchange) (xs : List Exchange) : State :=
  { s.awaiting sess code params m rest (if m.len = 0 then x :: xs else xs) with
    trace := s.trace ++ [.write sess.addr (frameBytes code params) true, .wait m.wait] ++
      if m.len = 0 then [] else [.read sess.addr m.len (some (x.bytes.toList.take m.len.toNat))] }

/-- The response received: the block is as the command loads it. -/
theorem run_receive {x : Exchange} {xs : List Exchange} (hx : s.nextExchange = x) (hr : x.readOk = true) (rest : List Move)
    (n : Nat) :
    Sys2Proof.core.run (n + 1)
      ((s.prepare code params m).withHost (s.awaiting sess code params m (.receive :: rest) (x :: xs))) =
    Sys2Proof.core.run n ((s.loaded code params m).withHost (s.answered sess code params m rest x xs)) := by
  let p := (s.prepare code params m).withHost (s.awaiting sess code params m rest (x :: xs))
  have hreceive : step ((s.prepare code params m).withHost (s.awaiting sess code params m (.receive :: rest) (x :: xs))) =
      .next (p.readResponse (sess.awaiting code)) := (step_cons rfl).trans (perform_receive rfl)
  refine (run_succ hreceive n).trans (congrArg (Sys2Proof.core.run n) ?_)
  have hlen : p.len = m.len := by
    change (s.prepare code params m).len = m.len
    rw [State.prepare_eq]
  by_cases hempty : m.len = 0
  · have hbytes : s.nextExchange.bytes.toList.take m.len.toNat = [] := by rw [hempty]; rfl
    rw [State.readResponse_of_empty _ (hlen.trans hempty), State.loaded, hbytes, State.answered, if_pos hempty, if_pos hempty,
      List.append_nil]
    simp only [p]
    rw [State.prepare_eq]
    rfl
  · have hnonempty : p.len ≠ 0 := hlen.symm ▸ hempty
    have hok : p.nextExchange.readOk = true := hr
    rw [State.readResponse_of_ok _ hnonempty hok, hlen, State.loaded, hx, State.answered, if_neg hempty, if_neg hempty]
    simp only [p]
    rw [State.prepare_eq]
    rfl

end

/-- Settles O56: the four moves up to the wait, the read, and the decode, which parses what the command parses. -/
theorem interactionsMakeUpTheCommand : Obligations.InteractionsMakeUpTheCommand := by
  intro s sess i code params x xs h hi hv hexchanges hw hr
  have hm := metadata_of_wireParts hi hv
  generalize hmeta : (⟨BitVec.ofNat 4 (3 * responseGroups i sess.variant), responseWait i sess.variant⟩ : Metadata) = m at hm
  have hwait : responseWait i sess.variant = m.wait := by rw [← hmeta]
  have hx : s.nextExchange = x := by rw [State.nextExchange, hexchanges]
  let l := (s.loaded code params m).withHost (s.answered sess code params m [.decode false] x xs)
  have hlen : l.len = m.len := by
    change (s.loaded code params m).len = m.len
    rw [State.loaded_eq]
  have hdecode : step l = .next ((l.setInbox []).decodeResponse false (sess.awaiting code)) :=
    (step_cons rfl).trans (perform_decode rfl false)
  refine ⟨_, (l.setInbox []).decodeResponse false (sess.awaiting code), h.exec_eq hi, ?run, ?same⟩
  case run =>
    rw [hwait]
    exact (run_until_wait h hm hw _ 2).trans ((run_receive hx hr _ 1).trans (run_succ hdecode 0))
  case same =>
    have hend : (l.setInbox []).parseAndReturn (some code) (sess.awaiting code) (l.setInbox []).len =
        ((s.loaded code params m).parseAndReturn (some code) sess m.len).withHost
          ((s.answered sess code params m [.decode false] x xs).setInbox []) := by
      rw [← State.parseAndReturn_withHost, ← hlen]
      rfl
    have hdecoded : (l.setInbox []).decodeResponse false (sess.awaiting code) =
        { (l.setInbox []).parseAndReturn (some code) (sess.awaiting code) (l.setInbox []).len with
          session := some (sess.awaiting code).settled } :=
      State.decodeResponse_of_parse (.inl rfl) _
    rw [hdecoded, hend, State.command_of_answered hm (hx ▸ hw) fun _ => hx ▸ hr, State.parseAndReturn_withHost, State.exchanged,
      hx, State.answered]
    rfl

end Sys2Proof.Machine
end

section
/-! What every step keeps: the moves of the host are made of a few elementary changes, so a property is kept by every step where
each of these keeps it. From that the row of the metadata table (R101), the invariant (R36) and the heater (R153). -/

open Sys2Proof Relation

namespace Sys2Proof.Machine

/-! ### What a move is made of -/

/-- The elementary changes that every move but a reset is made of. -/
inductive Elementary : State → State → Prop
  /-- A request of the block. -/
  | request {s t : State} {i : Instr} (h : isRequest i = true) (ht : exec i s = .next t) : Elementary s t
  /-- A reserved request word (R79). -/
  | illegal (s : State) : Elementary s (s.takeFault .illegalRequest)
  /-- A byte of a frame read out of `TX` (R117). -/
  | fetch (s : State) (i : Nat) : Elementary s (s.fetchTx i).complete
  /-- The host takes its next move, uses an answer up, or has a result more. -/
  | host (s : State) (results : List HostResult) (inbox : List Move) (exchanges : List Exchange) (draws : Nat) :
    Elementary s { s with results := results, inbox := inbox, exchanges := exchanges, draws := draws }
  /-- A wait or a read. -/
  | event (s : State) {e : BusEvent} (he : ∀ a bytes ok, e ≠ .write a bytes ok) : Elementary s (s.record e)
  /-- A write that fails, or one of bytes that carry no code. -/
  | lost (s : State) (a : BitVec 7) {bytes : List Byte} {ok : Bool} (h : ok = false ∨ frameCode bytes = none) :
    Elementary s (s.record (.write a bytes ok))
  /-- A frame is written to the session's address (R151 step 4). -/
  | send {s : State} {sess : Session} (hs : s.session = some sess) {bytes : List Byte} {code : Word}
    (hcode : frameCode bytes = some code) {st : SessionState} (hst : st = endState code ∨ st = .awaitingResponse) :
    Elementary s ((s.record (.write sess.addr bytes true)).issue sess code st)
  /-- The pending command ends. -/
  | settle {s : State} {sess : Session} (hs : s.session = some sess) : Elementary s (s.setSession sess.settled)
  /-- A session is constructed, or the arguments of its construction are refused (R143). -/
  | construct (s : State) {session : Option Session}
    (h : session = none ∨ ∃ v verify, session = some (Session.fresh v verify)) : Elementary s { s with session := session }

/-- A run of elementary changes. -/
abbrev Elementaries : State → State → Prop := ReflTransGen Elementary

theorem Elementaries.nil (s : State) : Elementaries s s := .refl

theorem Elementaries.snoc {s t u : State} (h : Elementaries s t) (hu : Elementary t u) : Elementaries s u := h.tail hu

theorem Elementaries.returns {s t : State} (h : Elementaries s t) (r : HostResult) : Elementaries s (t.returns r) :=
  h.snoc (.host t ..)

theorem Elementaries.popExchange {s t : State} (h : Elementaries s t) : Elementaries s t.popExchange := by
  refine h.tail ?_
  rw [t.popExchange_eq]
  exact .host t ..

theorem Elementaries.waited {s t : State} (h : Elementaries s t) (ms : Word) : Elementaries s (t.record (.wait ms)) :=
  h.snoc (.event t nofun)

theorem Elementaries.read {s t : State} (h : Elementaries s t) (a : BitVec 7) (n : BitVec 4) (bs : Option (List Byte)) :
    Elementaries s (t.record (.read a n bs)) :=
  h.snoc (.event t nofun)

theorem Elementaries.answered {s t u : State} (h : Elementaries s t) {i : Instr} (hi : isRequest i = true)
    (hu : exec i t = .next u) : Elementaries s u :=
  h.snoc (.request hi hu)

theorem elementaries_of_runInstrs {is : List Instr} (h : ∀ i ∈ is, isRequest i = true) {s t : State}
    (ht : runInstrs is s = .next t) : Elementaries s t := by
  induction is generalizing s with
  | nil =>
    obtain rfl := Host.Outcome.next.inj ht
    exact .refl
  | cons i is ih =>
    have hi := h i (.head is)
    have hexec := exec_request s i hi
    rw [runInstrs_cons hexec] at ht
    exact .head (.request hi hexec) (ih (fun j hj => h j (.tail i hj)) ht)

theorem isRequest_of_mem_pseudoTxdump {n : Nat} {i : Instr} (h : i ∈ pseudoTxdump n) : isRequest i = true := by
  obtain ⟨j, -, rfl⟩ := List.mem_map.mp h
  rfl

theorem isRequest_of_mem_pseudoRxload {bytes : List Byte} {i : Instr} (h : i ∈ pseudoRxload bytes) : isRequest i = true := by
  obtain ⟨p, -, rfl⟩ := List.mem_map.mp h
  rfl

theorem isRequest_buildOf (code : Word) : ∀ p : Option (Word × Word), isRequest (buildOf code p) = true
  | none | some _ => rfl

theorem elementaries_prepare {code : Word} {v : Variant} {m : Metadata} (hm : metadata code v = .ok m)
    (params : Option (Word × Word)) (s : State) : Elementaries s (s.prepare code params m) := by
  refine elementaries_of_runInstrs (fun i hi => ?_) (runInstrs_prepare hm params s)
  obtain hi | hi := List.mem_append.mp hi
  · obtain rfl | hi := List.mem_cons.mp hi
    · rfl
    · rw [List.mem_singleton.mp hi]
      exact isRequest_buildOf code params
  · exact isRequest_of_mem_pseudoTxdump hi

theorem elementaries_dumpTx (s : State) (n : Nat) : Elementaries s (s.dumpTx n) := by
  induction n with
  | zero => exact .refl
  | succ n ih =>
    rw [State.dumpTx_add_one]
    exact ih.snoc (.fetch ..)

/-- The bytes of an answer, for a read of at least one byte, are written by as many `RXWR`s. -/
theorem Elementaries.loadRx {s t : State} (h : Elementaries s t) (x : Exchange) {len : BitVec 4} (hlen : len ≠ 0) :
    Elementaries s (t.loadRx (x.bytes.toList.take len.toNat)) := by
  have hlength : (x.bytes.toList.take len.toNat).length = min len.toNat rxCap := by
    rw [List.length_take, Vector.length_toList]
    rfl
  have hpos : len.toNat ≠ 0 := fun hzero => hlen (BitVec.eq_of_toNat_eq hzero)
  have hne : x.bytes.toList.take len.toNat ≠ [] := by
    rw [← List.length_pos_iff, hlength, rxCap]
    omega
  exact h.trans (elementaries_of_runInstrs (fun _ => isRequest_of_mem_pseudoRxload)
    (runInstrs_rxload hne (hlength ▸ Nat.min_le_right ..) t))

theorem Elementaries.parseAndReturn {s t : State} (h : Elementaries s t) (last : Option Word) (sess : Session)
    (len : BitVec 4) : Elementaries s (t.parseAndReturn last sess len) := by
  obtain ⟨r, hr⟩ := t.parseAndReturn_eq_returns last sess len
  rw [hr]
  exact (h.answered (i := .parse len sess.verify) rfl rfl).returns r

theorem Elementaries.fails {s t : State} (h : Elementaries s t) {i : Instr} (hi : isRequest i = true) {f : BlockFault}
    (hf : requestEffect t i hi = .error f) : Elementaries s (t.takeFault f) :=
  h.answered hi ((exec_request t i hi).trans (by rw [hf]; rfl))

/-- A command is its requests and its transport calls. -/
theorem elementaries_command {s : State} {sess : Session} (hs : s.session = some sess) (code : Word)
    (params : Option (Word × Word)) : Elementaries s (s.command code params sess) := by
  have hsent {m : Metadata} (hm : metadata code sess.variant = .ok m) : Elementaries s (s.sent code params m sess) := by
    have hsession : (s.prepare code params m).popExchange.session = some sess := by
      rw [State.popExchange_eq, State.prepare_session, hs]
    exact ((elementaries_prepare hm params s).popExchange.snoc
      (.send hsession (frameCode_frameBytes code params) (.inl rfl))).waited m.wait
  obtain ⟨f, hf, hend⟩ | ⟨m, hm, ⟨-, hend⟩ | ⟨-, -, hend⟩ | ⟨-, -, -, hend⟩ | ⟨-, hlen, -, hend⟩⟩ :=
    s.command_cases code params sess <;> rw [hend]
  · refine ((Elementaries.nil s).fails (i := .resolve code sess.variant) rfl ?_).returns _
    exact congrArg (Except.map s.setMetadata) hf
  · exact ((elementaries_prepare hm params s).popExchange.snoc (.lost _ _ (.inl rfl))).returns _
  · exact (hsent hm).parseAndReturn ..
  · exact ((hsent hm).read ..).returns _
  · exact (((hsent hm).read ..).loadRx s.nextExchange hlen).parseAndReturn ..

theorem elementaries_writeBytes {s : State} {sess : Session} (hs : s.session = some sess) (bytes : List Byte) :
    Elementaries s (s.writeBytes bytes sess) := by
  have hpop : Elementaries s s.popExchange := (Elementaries.nil s).popExchange
  have hsession : s.popExchange.session = some sess := by rw [State.popExchange_eq, hs]
  obtain ⟨-, hend⟩ | ⟨-, hshort, hend⟩ | ⟨c, -, hcode, hend⟩ := s.writeBytes_cases bytes sess <;> rw [hend]
  · exact (hpop.snoc (.lost _ _ (.inl rfl))).returns _
  · exact hpop.snoc (.lost _ _ (.inr hshort))
  · exact hpop.snoc (.send hsession hcode (.inr rfl))

theorem elementaries_readResponse {s : State} {sess : Session} (hs : s.session = some sess) :
    Elementaries s (s.readResponse sess) := by
  have hpop : Elementaries s s.popExchange := (Elementaries.nil s).popExchange
  have hsession : s.popExchange.session = some sess := by rw [State.popExchange_eq, hs]
  obtain ⟨-, hend⟩ | ⟨hlen, -, hend⟩ | ⟨-, -, hend⟩ := s.readResponse_cases sess
  · rw [hend]
  · exact hend ▸ (hpop.read ..).loadRx s.nextExchange hlen
  · exact hend ▸ ((hpop.read ..).snoc (.settle hsession)).returns _

theorem elementaries_decodeResponse {s : State} {sess : Session} (hs : s.session = some sess) (skip : Bool) :
    Elementaries s (s.decodeResponse skip sess) := by
  have hsettled : Elementaries s (s.setSession sess.settled) := .single (.settle hs)
  unfold State.decodeResponse
  split
  case isTrue => exact hsettled.returns _
  case isFalse => exact hsettled.parseAndReturn ..

/-- An operation with compensation values: the two transforms, then the command with the raw values. -/
theorem elementaries_withTransforms {s : State} {sess : Session} (hs : s.session = some sess) (rh t code : Word) :
    Elementaries s (s.withTransforms rh t fun u rr tr => u.command code (some (rr, tr)) sess) := by
  have humid {r : Option Word} (hr : rawHumidity (sint16 rh) = r) : exec (.rawrh rh) s = .next (s.answer (s.setRaw r)) :=
    hr ▸ rfl
  have warm {r : Option Word} (hr : rawTemperature (sint16 t) = r) (u : State) :
      exec (.rawt t) u = .next (u.answer (u.setRaw r)) :=
    hr ▸ rfl
  obtain ⟨h1, hend⟩ | ⟨r, h1, h2, hend⟩ | ⟨r, q, h1, h2, hend⟩ :=
    s.withTransforms_cases rh t fun u rr tr => u.command code (some (rr, tr)) sess <;> rw [hend]
  · exact ((Elementaries.nil s).answered rfl (humid h1)).returns _
  · exact (((Elementaries.nil s).answered rfl (humid h1)).answered rfl (warm h2 _)).returns _
  · exact (((Elementaries.nil s).answered rfl (humid h1)).answered rfl (warm h2 _)).trans
      (elementaries_command (s := ({ s with raw := q } : State).complete) hs ..)

/-- What runs in a session is made of elementary changes where its body is. -/
theorem elementaries_withSession {s t : State} {b : Bool} {f : Session → State}
    (hf : ∀ {sess}, s.session = some sess → Elementaries s (f sess)) (h : s.withSession b f = .next t) : Elementaries s t := by
  obtain ⟨sess, hs, rfl, -⟩ := State.withSession_cases h
  exact hf hs

theorem elementaries_exec {s t : State} (i : Instr) (h : exec i s = .next t) : Elementaries s t := by
  cases i with
  | getSerialNumber | executeSelfTest | executeConditioning | measureRawSignal | turnHeaterOff =>
    exact elementaries_withSession (fun hs => elementaries_command hs ..) h
  | _ => exact .single (.request rfl h)

theorem elementaries_runOperation {s t : State} (op : SessionOp) (h : runOperation op s = .next t) : Elementaries s t := by
  cases op with
  | getId | selfTest | heaterOff => exact elementaries_withSession (fun hs => elementaries_command hs ..) h
  | condition | measure => exact elementaries_withSession (fun hs => elementaries_withTransforms hs ..) h
  | getSensorId => exact elementaries_withSession (fun _ => (Elementaries.nil s).returns _) h

theorem elementaries_construct (s : State) (a v : Int) (verify : Bool) : Elementaries s (s.construct a v verify) := by
  obtain ⟨var, -, -, hend⟩ | hend := s.construct_cases a v verify <;> rw [hend]
  · exact Elementaries.returns (.single (.construct s (.inr ⟨var, verify, rfl⟩))) _
  · exact Elementaries.returns (.single (.construct s (.inl rfl))) _

theorem elementaries_sendBytes {s t : State} {bytes : List Byte} (h : s.sendBytes bytes = .next t) : Elementaries s t :=
  elementaries_withSession (fun hs => elementaries_writeBytes hs bytes) h

/-- Every move but a reset is made of elementary changes. -/
theorem elementaries_perform {m : Move} {s t : State} (hm : m ≠ .reset) (h : perform m s = .next t) : Elementaries s t := by
  obtain ⟨p, i, -, -, h⟩ | ⟨p, op, -, -, rfl⟩ | ⟨p, code, -, -, h⟩ | ⟨op, -, h⟩ | ⟨a, v, verify, -, rfl⟩ | ⟨hreset, -⟩ |
    ⟨p, cmd, params, -, -, h⟩ | ⟨p, bytes, -, -, h⟩ | ⟨-, h⟩ | ⟨ms, -, rfl⟩ | ⟨-, h⟩ | ⟨skip, -, h⟩ := perform_cases h
  · exact elementaries_exec i h
  · exact .single (.illegal s)
  · exact elementaries_withSession (fun hs => elementaries_command hs ..) h
  · exact elementaries_runOperation op h
  · exact elementaries_construct s a v verify
  · exact absurd hreset hm
  · exact elementaries_withSession (fun hs => elementaries_command hs ..) h
  · exact elementaries_sendBytes h
  · exact (elementaries_dumpTx s _).trans (elementaries_sendBytes h)
  · exact (Elementaries.nil s).waited ms
  · exact elementaries_withSession elementaries_readResponse h
  · exact elementaries_withSession (fun hs => elementaries_decodeResponse hs skip) h

/-- A step is a reset of the block or made of elementary changes. -/
theorem step_reset_or_elementaries {s t : State} (h : step s = .next t) :
    (∃ rest, s.inbox = .reset :: rest ∧ t = (s.setInbox rest).resetBlock) ∨ Elementaries s t := by
  obtain ⟨-, rfl⟩ | ⟨m, rest, hinbox, hm⟩ := step_cases h
  · exact .inr .refl
  · by_cases hreset : m = .reset
    · subst hreset
      exact .inl ⟨rest, hinbox, (Host.Outcome.next.inj hm).symm⟩
    · exact .inr (.head (.host s s.results rest s.exchanges s.draws) (elementaries_perform hreset hm))

/-- What every elementary change keeps, a run of them keeps. -/
theorem Elementaries.keeps {P : State → Prop} (hP : ∀ {s t}, Elementary s t → P s → P t) {s t : State}
    (h : Elementaries s t) (hs : P s) : P t := by
  induction h with
  | refl => exact hs
  | tail _ hstep ih => exact hP hstep ih

/-- What every elementary change and a reset keep, every step keeps. -/
theorem step_keeps {P : State → Prop} (hP : ∀ {s t}, Elementary s t → P s → P t) (hreset : ∀ {s}, P s → P s.resetBlock)
    {s t : State} (h : step s = .next t) (hs : P s) : P t := by
  obtain ⟨rest, -, rfl⟩ | hrun := step_reset_or_elementaries h
  · exact hreset (hP (.host s s.results rest s.exchanges s.draws) hs)
  · exact hrun.keeps hP hs

end Sys2Proof.Machine
end

section
/-! The properties every step keeps: the row of the metadata table (R101), the invariant (R36), and the heater (R153). -/

open Sys2Proof

namespace Sys2Proof.Machine

/-! ### A row of the metadata table in `LEN` and `WAIT` (R101) -/

/-- A row of the table stands in `LEN` and `WAIT`. -/
def HasRow (s : State) : Prop := (s.len, s.wait) ∈ metadataRows

theorem hasRow_of_resolve {code : Word} {v : Variant} {s t : State} (h : exec (.resolve code v) s = .next t)
    (hs : HasRow s ∨ t.err.cause = 0) : HasRow t := by
  rw [exec_resolve] at h
  obtain rfl := Host.Outcome.next.inj h
  cases hm : metadata code v with
  | ok m => exact metadata_mem_rows hm
  | error f =>
    rw [hm] at hs
    exact hs.resolve_right fun hcause => causeCode_ne_zero f ((errOfFault_cause f).symm.trans hcause)

theorem Elementary.keeps_hasRow {s t : State} (h : Elementary s t) (hs : HasRow s) : HasRow t := by
  cases h with
  | request hi ht =>
    obtain ⟨-, -, -, hmetadata, -⟩ := registersHaveTheirWriters _ s t hi ht
    by_cases hchanged : t.len ≠ s.len ∨ t.wait ≠ s.wait
    · obtain ⟨code, v, rfl⟩ := hmetadata hchanged
      exact hasRow_of_resolve ht (.inl hs)
    · obtain ⟨hlen, hwait⟩ := not_or.mp hchanged
      rw [HasRow, not_not.mp hlen, not_not.mp hwait]
      exact hs
  | illegal | fetch | host | event | lost | send | settle | construct => exact hs

/-- Settles O16: a `RESOLVE` that clears `ERR` has found a row, and nothing else but a reset writes the two registers. -/
theorem metadataStaysARowOfTheTable : Obligations.MetadataStaysARowOfTheTable := by
  refine ⟨fun code v s t ht hcause => hasRow_of_resolve ht (.inr hcause), fun s t hs hreset ht => ?_⟩
  obtain ⟨rest, hinbox, -⟩ | hrun := step_reset_or_elementaries ht
  · exact absurd hinbox (hreset rest)
  · exact hrun.keeps Elementary.keeps_hasRow hs

/-! ### The invariant (R36) -/

/-- Settles O57: nothing is built, written or faulted yet, and the session is a fresh one. -/
theorem resetSatisfiesTheInvariant : Obligations.ResetSatisfiesTheInvariant where
  txWf := Memory.wf_nil txCap
  rxWf := Memory.wf_nil rxCap
  txlenLegal := .inl rfl
  txWritten _ hi := absurd hi (Nat.not_lt_zero _)
  frameGuarded := nofun
  causeLegal := nofun
  noInfo _ := ⟨rfl, rfl, rfl⟩
  mismatchInfo := nofun
  sessionLegal _ h := Option.some.inj h ▸ ⟨rfl, .inl rfl⟩
  sentLegal := Nat.le_refl 0

/-- What R31 and R36 say of `ERR`. -/
def Err.Legal (e : Err) : Prop :=
  e.cause ≠ 7 ∧ (e.cause ≠ 5 → e.gidx = 0 ∧ e.exp = 0 ∧ e.cmp = 0) ∧ (e.cause = 5 → e.gidx ≠ 3 ∧ e.exp ≠ e.cmp)

theorem Err.legal_clear : Err.clear.Legal :=
  ⟨nofun, fun _ => ⟨rfl, rfl, rfl⟩, nofun⟩

/-- No request word leaves anything else in `ERR` (R160). -/
theorem err_legal_of_present {w : Req} {s t : State} (ht : present (.request w) s = .next t) : t.err.Legal := by
  obtain ⟨-, -, -, -, -, -, hseven, hzero, -⟩ := eachCauseIsRaisedWhereTheTableSays w s t ht
  refine ⟨hseven, hzero, fun hfive => ?_⟩
  obtain ⟨-, -, n, k, hn, -, ⟨hk, -, hcorrupt⟩, herr⟩ := firstCorrupt_of_cause_five ht hfive
  have hgidx : ∀ k < 3, BitVec.ofNat 2 k ≠ 3 := by decide
  rw [herr]
  exact ⟨hgidx k (by omega), hcorrupt⟩

theorem exists_encode_request : ∀ {i : Instr}, isRequest i = true → ∃ w, encode i = .request w
  | .crcinit, _ | .crcupd _, _ | .resolve _ _, _ | .build _ _ _ _ _, _ | .parse _ _, _ | .rawrh _, _ | .rawt _, _
  | .rxwr _ _, _ | .txrd _, _ => ⟨_, rfl⟩

theorem err_legal_of_exec {i : Instr} {s t : State} (hi : isRequest i = true) (ht : exec i s = .next t) : t.err.Legal := by
  obtain ⟨w, hw⟩ := exists_encode_request hi
  exact err_legal_of_present (hw ▸ (present_of_decode (decodeReadsBackEncode i) s).trans ht)

theorem err_legal_illegalRequest : (errOfFault .illegalRequest).Legal :=
  ⟨nofun, fun _ => ⟨rfl, rfl, rfl⟩, nofun⟩

section
variable {s : State} (h : Inv s)
include h

theorem Inv.setErr {e : Err} (he : e.Legal) : Inv { s with err := e } :=
  { h with causeLegal := he.1, noInfo := he.2.1, mismatchInfo := he.2.2 }

theorem Inv.setRx {j : Nat} (hj : j < rxCap) (b : Byte) : Inv { s with rx := s.rx.write j b } :=
  { h with rxWf := Memory.wf_write b h.rxWf hj }

/-- A frame is built with its bytes written and its parameters guarded (R24, R36). -/
theorem Inv.buildFrame (code : Word) (p : Option (Word × Word)) : Inv (s.buildFrame code p) :=
  have hlen : (frameBytes code p).length ≤ txCap := by
    rw [frameBytes_length]
    split <;> decide
  have htxlen : (s.buildFrame code p).txlen.toNat = (frameBytes code p).length :=
    toNat_ofNat_index (Nat.lt_of_le_of_lt hlen (by decide))
  { h with
    txWf := Memory.wf_store _ h.txWf (by omega)
    txlenLegal := match p with
      | none => .inr (.inl rfl)
      | some _ => .inr (.inr rfl)
    txWritten := fun i hi => by
      have hi' : i < (frameBytes code p).length := htxlen ▸ hi
      change ((s.tx.store 0 (frameBytes code p)).find? i).isSome = true
      rw [Memory.find?_store, if_pos ⟨Nat.zero_le i, by omega⟩, Nat.sub_zero, List.getElem?_eq_getElem hi']
      rfl
    frameGuarded := match p with
      | none => nofun
      | some (rh, t) => fun _ => by
        simp only [State.buildFrame_txByte]
        exact ⟨rfl, rfl⟩ }

end

/-- A request keeps the invariant: `BUILD` and `RXWR` write the buffers, and none of the others does. -/
theorem Inv.exec {i : Instr} {s t : State} (h : Inv s) (hi : isRequest i = true) (ht : exec i s = .next t) : Inv t := by
  have herr := err_legal_of_exec hi ht
  match i, hi with
  | .build code rhp tp rh v, _ =>
    rw [exec_build] at ht
    obtain rfl := Host.Outcome.next.inj ht
    exact (h.buildFrame ..).setErr Err.legal_clear
  | .rxwr idx b, _ =>
    by_cases hidx : idx.toNat < rxCap
    · rw [exec_rxwr_inside hidx] at ht
      obtain rfl := Host.Outcome.next.inj ht
      exact (h.setRx hidx b).setErr Err.legal_clear
    · rw [exec_rxwr_pastEnd (Nat.le_of_not_lt hidx)] at ht
      obtain rfl := Host.Outcome.next.inj ht
      exact h.setErr err_legal_illegalRequest
  | .crcinit, hi | .crcupd _, hi | .resolve _ _, hi | .parse _ _, hi | .rawrh _, hi | .rawt _, hi | .txrd _, hi =>
    rw [exec_writtenBy hi ht]
    exact { h.setErr herr with }

/-- What R141 and R142 say of a session. -/
def Session.Legal (sess : Session) : Prop :=
  sess.addr = 0x59 ∧ (sess.sstate = stateAfter sess.lastCmd ∨ sess.sstate = .awaitingResponse ∧ sess.lastCmd.isSome = true)

theorem Session.Legal.settled {sess : Session} (h : sess.Legal) : sess.settled.Legal := by
  obtain ⟨haddr, hstate⟩ := h
  obtain ⟨-, hend⟩ | ⟨-, hlast, hend⟩ | ⟨c, -, hlast, hend⟩ := sess.settled_cases <;> rw [hend]
  · exact ⟨haddr, hstate⟩
  · exact ⟨haddr, .inl (by rw [hlast]; rfl)⟩
  · exact ⟨haddr, .inl (by rw [hlast]; rfl)⟩

theorem Session.Legal.issue {sess : Session} (h : sess.Legal) {code : Word} {st : SessionState}
    (hst : st = endState code ∨ st = .awaitingResponse) :
    ({ sess with lastCmd := some code, sstate := st } : Session).Legal :=
  ⟨h.1, hst.imp id fun hawaiting => ⟨hawaiting, rfl⟩⟩

theorem Inv.setSession {s : State} (h : Inv s) {session : Option Session} (hlegal : ∀ sess, session = some sess → sess.Legal) :
    Inv { s with session := session } :=
  { h with sessionLegal := hlegal }

theorem Elementary.keeps_inv {s t : State} (h : Elementary s t) (hs : Inv s) : Inv t := by
  cases h with
  | request hi ht => exact hs.exec hi ht
  | illegal => exact hs.setErr err_legal_illegalRequest
  | fetch => exact { hs.setErr Err.legal_clear with }
  | host | event | lost => exact { hs with }
  | send hsess _ hst =>
    have hlegal : Session.Legal _ := Session.Legal.issue (hs.sessionLegal _ hsess) hst
    exact { hs with sessionLegal := fun _ hnew => Option.some.inj hnew ▸ hlegal, sentLegal := Nat.le_refl _ }
  | settle hsess =>
    exact hs.setSession fun _ hnew => Option.some.inj hnew ▸ Session.Legal.settled (hs.sessionLegal _ hsess)
  | construct hnew =>
    refine hs.setSession fun sess hsess => ?_
    subst hsess
    obtain hnone | ⟨v, verify, hfresh⟩ := hnew
    · cases hnone
    · exact Option.some.inj hfresh ▸ ⟨rfl, .inl rfl⟩

theorem Inv.resetBlock {s : State} (h : Inv s) : Inv s.resetBlock :=
  { resetSatisfiesTheInvariant with
    frameGuarded := nofun
    sessionLegal := h.sessionLegal
    sentLegal := Nat.le_succ_of_le h.sentLegal }

/-- Settles O58: each elementary change keeps the invariant, and so does a reset. -/
theorem everyStepKeepsTheInvariant : Obligations.EveryStepKeepsTheInvariant :=
  fun _ _ hs ht => step_keeps Elementary.keeps_inv Inv.resetBlock ht hs

/-! ### The heater (R142, R153) -/

/-- A heating command is unclosed at the end of the trace, and the heater may be on. -/
def HeaterOpen (trace : List BusEvent) : Prop := HeatingUnclosed trace ∧ heaterMayBeOn trace = true

/-- The session is in `Measuring`, or its pending command leaves it there. -/
def Session.Heating (sess : Session) : Prop :=
  sess.sstate = .measuring ∨ sess.sstate = .awaitingResponse ∧ stateAfter sess.lastCmd = .measuring

/-- A session that is heating has a heating command unclosed. -/
def Heats (s : State) : Prop := ∀ sess, s.session = some sess → sess.Heating → HeaterOpen s.trace

theorem coolingFrame_eq_false {bytes : List Byte} (h : frameCode bytes ≠ some Config.cmdHeaterOff) : coolingFrame bytes = false := by
  refine beq_eq_false_iff_ne.mpr fun hoff => h ?_
  rw [hoff, frameCode_frameBytes]

/-- The heater stays on under a write that fails, and under one of any frame but turn-heater-off. -/
theorem heatAfter_true_write {bytes : List Byte} {ok : Bool} (h : ok = false ∨ coolingFrame bytes = false) (a : BitVec 7) :
    heatAfter true (.write a bytes ok) = true := by
  simp only [heatAfter]
  split
  case isTrue hcool => rw [h.resolve_right (by rw [hcool]; nofun)]; rfl
  case isFalse => exact ite_self true

section
variable {bytes : List Byte} {code : Word} (hcode : frameCode bytes = some code) (hheats : endState code = .measuring)
include hcode hheats

theorem heatingFrame_of_endState : heatingFrame bytes = true := by
  unfold endState at hheats
  split at hheats
  case isTrue hheating => obtain rfl | rfl := hheating <;> simp [heatingFrame, hcode]
  case isFalse => cases hheats

/-- The frame of a command that leaves the session `Idle` is another one. -/
theorem ne_frameBytes_of_heating {cmd : WireCommand} (hidle : endState (codeOfCommand cmd) = .idle) :
    bytes ≠ frameBytes (codeOfCommand cmd) none := by
  rintro rfl
  rw [frameCode_frameBytes] at hcode
  obtain rfl := Option.some.inj hcode
  rw [hidle] at hheats
  cases hheats

theorem coolingFrame_of_heating : coolingFrame bytes = false :=
  beq_eq_false_iff_ne.mpr (ne_frameBytes_of_heating hcode hheats (cmd := .turnHeaterOff) (endState_codeOfCommand _))

theorem neutralFrame_of_heating : neutralFrame bytes = false :=
  Bool.or_eq_false_iff.mpr
    ⟨beq_eq_false_iff_ne.mpr (ne_frameBytes_of_heating hcode hheats (cmd := .getSerialNumber) (endState_codeOfCommand _)),
      beq_eq_false_iff_ne.mpr (ne_frameBytes_of_heating hcode hheats (cmd := .executeSelfTest) (endState_codeOfCommand _))⟩

/-- A heating command written opens the heater, whatever came before it. -/
theorem heaterOpen_of_heating (trace : List BusEvent) (a : BitVec 7) : HeaterOpen (trace ++ [.write a bytes true]) := by
  refine ⟨⟨trace, a, bytes, [], rfl, heatingFrame_of_endState hcode hheats, nofun⟩, ?_⟩
  rw [heaterMayBeOn_append, List.foldl_cons, List.foldl_nil]
  simp only [heatAfter, coolingFrame_of_heating hcode hheats, neutralFrame_of_heating hcode hheats, Bool.false_eq_true, if_false]

end

theorem HeaterOpen.snoc {trace : List BusEvent} (h : HeaterOpen trace) {e : BusEvent}
    (hclosed : ∀ a bytes, e = .write a bytes true → coolingFrame bytes = false) (hon : heatAfter true e = true) :
    HeaterOpen (trace ++ [e]) := by
  obtain ⟨⟨before, addr, bytes, after, rfl, hheating, hafter⟩, hheater⟩ := h
  refine ⟨⟨before, addr, bytes, after ++ [e], by rw [List.append_assoc, List.cons_append], hheating, fun a b hmem => ?_⟩, ?_⟩
  · obtain hold | hnew := List.mem_append.mp hmem
    · exact hafter a b hold
    · exact hclosed a b (List.mem_singleton.mp hnew).symm
  · rw [heaterMayBeOn_append, hheater, List.foldl_cons, hon]
    rfl

theorem endState_ne_awaitingResponse (code : Word) : endState code ≠ .awaitingResponse := by
  unfold endState
  split <;> nofun

/-- A session that ends its pending command was on the way to where it is. -/
theorem Session.Heating.of_settled {sess : Session} (h : sess.settled.Heating) : sess.Heating := by
  obtain ⟨-, hend⟩ | ⟨-, -, hend⟩ | ⟨c, hawaiting, hlast, hend⟩ := sess.settled_cases <;> rw [hend] at h
  · exact h
  · obtain hmeasuring | ⟨hawaiting, -⟩ := h
    · cases hmeasuring
    · cases hawaiting
  · refine .inr ⟨hawaiting, hlast ▸ h.elim id fun ⟨hstill, _⟩ => ?_⟩
    exact absurd hstill (endState_ne_awaitingResponse c)

theorem Elementary.keeps_heats {s t : State} (h : Elementary s t) (hs : Heats s) : Heats t := by
  cases h with
  | request hi ht =>
    have hsame := sameHost_of_exec hi ht
    rw [Heats, hsame.session, hsame.trace]
    exact hs
  | illegal | fetch | host => exact hs
  | @event e he =>
    refine fun sess hsess hheating => (hs sess hsess hheating).snoc (fun a b hwrite => absurd hwrite (he a b true)) ?_
    cases e with
    | write a bytes ok => exact absurd rfl (he a bytes ok)
    | wait | read => rfl
  | @lost a bytes ok hlost =>
    have hcool : ok = true → coolingFrame bytes = false := fun hok => coolingFrame_eq_false <| by
      rw [hlost.resolve_left (by rw [hok]; nofun)]
      nofun
    refine fun sess hsess hheating => (hs sess hsess hheating).snoc (fun a b hwrite => ?_) (heatAfter_true_write ?_ a)
    · obtain ⟨-, rfl, hok⟩ := BusEvent.write.inj hwrite
      exact hcool hok
    · cases ok with
      | false => exact .inl rfl
      | true => exact .inr (hcool rfl)
  | send hsess hcode hst =>
    intro sess hnew hheating
    obtain rfl := Option.some.inj hnew
    refine heaterOpen_of_heating hcode ?_ s.trace _
    obtain hmeasuring | ⟨-, hafter⟩ := hheating
    · obtain rfl | rfl := hst
      · exact hmeasuring
      · cases hmeasuring
    · exact hafter
  | settle hsess =>
    intro sess hnew hheating
    obtain rfl := Option.some.inj hnew
    exact hs _ hsess hheating.of_settled
  | construct hnew =>
    rintro sess rfl hheating
    obtain hnone | ⟨v, verify, hfresh⟩ := hnew
    · cases hnone
    · obtain rfl := Option.some.inj hfresh
      obtain hmeasuring | ⟨hawaiting, -⟩ := hheating
      · cases hmeasuring
      · cases hawaiting

/-- Settles O59: the write that sets a session heating opens the heater, and what closes the heater is the send of another command,
which sets the session otherwise. -/
theorem measuringMeansTheHeaterMayBeOn : Obligations.MeasuringMeansTheHeaterMayBeOn := by
  refine ⟨?reset, fun s t (hs : Heats s) ht => (step_keeps Elementary.keeps_heats (fun h => h) ht hs : Heats t)⟩
  rintro sess hsess (hmeasuring | ⟨hawaiting, -⟩)
  · obtain rfl := Option.some.inj hsess
    cases hmeasuring
  · obtain rfl := Option.some.inj hsess
    cases hawaiting

/-! ### `Idle` is no proof of a cold heater (C10) -/

/-- A session whose latest command was measure-raw-signal. -/
def measuringSession : Session := ⟨0x59, .variant1, true, some Config.cmdMeasureRaw, .measuring⟩

/-- That session, its command sent and the next read failing. -/
def measuringState : State :=
  { State.reset with
    session := some measuringSession
    trace := [.write 0x59 (frameBytes Config.cmdMeasureRaw (some (0, 0))) true]
    exchanges := [⟨true, false, .replicate 9 0⟩] }

theorem heaterOpen_measuringState : HeaterOpen measuringState.trace :=
  heaterOpen_of_heating (frameCode_frameBytes ..) (endState_codeOfCommand .measureRawSignal) [] 0x59

/-- Settles O60: get-serial-number, sent in `Measuring`, whose answer is not even read. -/
theorem idleIsNoProofOfAColdHeater : Obligations.IdleIsNoProofOfAColdHeater := by
  have hstarted : Started measuringState measuringSession := ⟨rfl, .inl nofun⟩
  have hexec : exec .getSerialNumber measuringState = _ := hstarted.exec_eq rfl
  have hend := State.command_of_read_fails (s := measuringState) (c := Config.cmdGetSerial) (p := none)
    (sess := measuringSession) (metadata_codeOfCommand .getSerialNumber .variant1) rfl (by decide) rfl
  have hcool : coolingFrame (frameBytes Config.cmdGetSerial none) = false := coolingFrame_eq_false <| by
    rw [frameCode_frameBytes]
    intro h
    cases codeOfCommand_injective (a := .getSerialNumber) (b := .turnHeaterOff) (Option.some.inj h)
  refine ⟨measuringState, _, _, rfl, rfl, heaterOpen_measuringState.2, hexec, ?_⟩
  rw [hend]
  refine ⟨⟨_, rfl, endState_codeOfCommand .getSerialNumber⟩, ?_⟩
  change heaterMayBeOn (measuringState.trace ++ [.write 0x59 (frameBytes Config.cmdGetSerial none) true, .wait _, .read ..]) = true
  rw [heaterMayBeOn_append, heaterOpen_measuringState.2, List.foldl_cons, heatAfter_true_write (.inr hcool)]
  rfl

end Sys2Proof.Machine
end
